-- ==== Sys2Proof/Word.lean ====
section
/-! DEFINITION. The word types of the block (00_scope.md R6): every value is unsigned, bit 0 is the
least significant. Nothing here computes. -/

namespace Sys2Proof

/-- A byte: 8 bits (R6). Also a transmission unit and a command byte. -/
abbrev Byte := BitVec 8

/-- A 7-bit I2C device address (10_state.md R25). -/
abbrev DevAddr := BitVec 7

/-- A request word `REQ[87:0]` (30_encoding.md R80). -/
abbrev ReqWord := BitVec 88

/-- The two modes of a byte (41_nibble_encoder.md R143). `command` is written `C` in the job lists
of the spec, `character` is written `D`. -/
inductive Mode where
  /-- A command byte: register-select clear, mode bit 0. -/
  | command
  /-- A character byte: register-select set, mode bit 1. -/
  | character
deriving DecidableEq, Repr

end Sys2Proof
end

