-- ==== Sys2Proof/Config.lean ====
section
/-! DEFINITION. What an implementation fixes (the parameters of 00_scope.md R4), the input pins the
environment drives (10_state.md R32), and the free values: what the spec leaves to a draw. -/

namespace Sys2Proof

/-- The implementation parameters of 00_scope.md R4. The machine holds one in its state and never
writes it (log entry 5), so a statement over every state is a statement over every
configuration. -/
structure Config where
  /-- `CLK_HZ`, the frequency of `clk`. -/
  clkHz : Nat
  /-- `N_HOLD_HI`, cycles the enable-high byte is held. -/
  nHoldHi : Nat
  /-- `N_HOLD_LO`, cycles held after the enable-low write. -/
  nHoldLo : Nat
  /-- `N_POWERON`, the power-on stabilisation wait of INIT. -/
  nPoweron : Nat
  /-- `N_INIT_WAIT`, the wait after INIT's first 0x03 byte. -/
  nInitWait : Nat
  /-- `N_CLEAR`, the wait after a clear-display or return-home byte. -/
  nClear : Nat
  /-- `CNT_W`, the width of the hold counter. -/
  cntW : Nat
  /-- `RS_BIT`, the bit of a unit that carries register-select. -/
  rsBit : Nat
  /-- `RW_BIT`, the bit of a unit that carries read/write (always driven 0). -/
  rwBit : Nat
  /-- `EN_BIT`, the bit of a unit that carries enable. -/
  enBit : Nat
  /-- `BL_BIT`, the bit of a unit that carries backlight. -/
  blBit : Nat
  /-- `LINE_OFFSET[0]` (below 0x80 by its type, like the other three). -/
  lineOffset0 : BitVec 7
  /-- `LINE_OFFSET[1]`. -/
  lineOffset1 : BitVec 7
  /-- `LINE_OFFSET[2]`. -/
  lineOffset2 : BitVec 7
  /-- `LINE_OFFSET[3]`. -/
  lineOffset3 : BitVec 7
  /-- `DEFAULT_ADDR`, the address the INIT pseudo-form uses (30_encoding.md R94). -/
  defaultAddr : DevAddr
  /-- `BUS_HZ`, the I2C clock the transport is opened at. The block never reads it
  (20_memory.md R54). -/
  busHz : Nat
deriving DecidableEq, Repr

/-- The input pins as sampled at one rising edge of `clk` (10_state.md R32). -/
structure Inputs where
  /-- `rst`, synchronous reset, active high. -/
  rst : Bool
  /-- `req_valid`: the host presents a request. -/
  reqValid : Bool
  /-- `req_word`: the request word presented. -/
  reqWord : ReqWord
  /-- `bw_done`: the transport has completed the current write. -/
  bwDone : Bool
  /-- `bo_done`: the transport has finished the bus open. -/
  boDone : Bool
  /-- `bo_ok`: the result of the bus open, valid with `bo_done`. -/
  boOk : Bool
deriving DecidableEq, Repr, Inhabited

/-- The pins at an edge for which nothing is scripted: a draw of the environment (20_memory.md R51,
R54; 40_sequencer.md R110). No body: nothing can be proved of its value (log entry 3). -/
opaque Config.freeInputs : Nat → Inputs

/-- The value `ADDR` takes at an edge with `rst = 1`: "a model draws any 7-bit value"
(10_state.md R25). No body (log entry 1). -/
opaque Config.freeAddr : Nat → DevAddr

/-- The value `REQ` takes at an edge with `rst = 1`: unspecified (10_state.md R30). No body
(log entry 2). -/
opaque Config.freeReq : Nat → ReqWord

/-- The unit byte `T` while the current step is no Byte, for a value of `STEP`: 40_sequencer.md R122
gives `T` on a Byte step only. No body (log entry 13). -/
opaque Config.freeUnit : (step : Nat) → Byte

end Sys2Proof
end

