-- ==== Sys2Proof/Machine/Params.lean ====
section
/-! DEFINITION. The reference configuration (the default column of 00_scope.md R4) and what the
parameters say: the control masks (R5) and the line-offset table (20_memory.md R75). -/

namespace Sys2Proof.Machine

/-- The reference configuration: the default column of R4. The values the spec takes from general
knowledge are its own (log entry 10). -/
def referenceConfig : Config where
  clkHz := 1000000
  nHoldHi := 5
  nHoldLo := 80
  nPoweron := 300000
  nInitWait := 5000
  nClear := 1500
  cntW := 19
  rsBit := 0
  rwBit := 1
  enBit := 2
  blBit := 3
  lineOffset0 := 0x00
  lineOffset1 := 0x40
  lineOffset2 := 0x14
  lineOffset3 := 0x54
  defaultAddr := 0x27
  busHz := 100000

/-- The mask of one control bit, `1 << bit` (R5). -/
def bitMask (bit : Nat) : Byte := (1 : Byte) <<< bit

/-- `RS_MASK` (R5). -/
def rsMask (c : Config) : Byte := bitMask c.rsBit

/-- `RW_MASK` (R5). No unit ever has it set (30_encoding.md R89). -/
def rwMask (c : Config) : Byte := bitMask c.rwBit

/-- `EN_MASK` (R5). -/
def enMask (c : Config) : Byte := bitMask c.enBit

/-- `BL_MASK` (R5). -/
def blMask (c : Config) : Byte := bitMask c.blBit

/-- `LINE_OFFSET[line]` (20_memory.md R75). -/
def lineOffset (c : Config) (line : BitVec 2) : BitVec 7 :=
  match line.toNat with
  | 0 => c.lineOffset0
  | 1 => c.lineOffset1
  | 2 => c.lineOffset2
  | _ => c.lineOffset3

end Sys2Proof.Machine
end

