-- ==== Sys2Proof/Machine/Rom.lean ====
section
/-! DEFINITION. The command-set ROM (20_memory.md R63 to R74): named 8-bit entries, fixed. Every
value but 0x80, 0x03, 0x02 and 0x00 the spec itself takes from general knowledge (log entry 10). -/

namespace Sys2Proof.Machine

/-- `ROM[CLEAR_DISPLAY]` (R64). -/
def romClearDisplay : Byte := 0x01

/-- `ROM[RETURN_HOME]` (R65). -/
def romReturnHome : Byte := 0x02

/-- `ROM[ENTRY_MODE_SET]` (R66). -/
def romEntryModeSet : Byte := 0x04

/-- `ROM[ENTRY_LEFT]`, the controller's I/D bit (R66). -/
def romEntryLeft : Byte := 0x02

/-- `ROM[ENTRY_SHIFT]`, the controller's S bit (R66). -/
def romEntryShift : Byte := 0x01

/-- `ROM[DISPLAY_CONTROL]` (R67). -/
def romDisplayControl : Byte := 0x08

/-- `ROM[DISPLAY_ON]` (R67). -/
def romDisplayOn : Byte := 0x04

/-- `ROM[CURSOR_ON]` (R67). No composed pattern uses it. -/
def romCursorOn : Byte := 0x02

/-- `ROM[BLINK_ON]` (R67). No composed pattern uses it. -/
def romBlinkOn : Byte := 0x01

/-- `ROM[CURSOR_SHIFT]` (R68). -/
def romCursorShift : Byte := 0x10

/-- `ROM[DISPLAY_MOVE]`, the controller's S/C bit (R68). -/
def romDisplayMove : Byte := 0x08

/-- `ROM[MOVE_RIGHT]`, the controller's R/L bit (R68). -/
def romMoveRight : Byte := 0x04

/-- `ROM[FUNCTION_SET]` (R69). -/
def romFunctionSet : Byte := 0x20

/-- `ROM[MODE_8BIT]`, the controller's DL bit (R69). No composed pattern uses it. -/
def romMode8Bit : Byte := 0x10

/-- `ROM[TWO_LINE]`, the controller's N bit (R69). -/
def romTwoLine : Byte := 0x08

/-- `ROM[FONT_5X10]`, the controller's F bit (R69). No composed pattern uses it. -/
def romFont5x10 : Byte := 0x04

/-- `ROM[SET_CGRAM_ADDR]` (R70). -/
def romSetCgramAddr : Byte := 0x40

/-- `ROM[SET_DDRAM_ADDR]` (R71). -/
def romSetDdramAddr : Byte := 0x80

/-- `ROM[INIT_RESET]` (R72). -/
def romInitReset : Byte := 0x03

/-- `ROM[INIT_4BIT]` (R73). -/
def romInit4Bit : Byte := 0x02

/-- `ROM[NOP]` (R74). -/
def romNop : Byte := 0x00

end Sys2Proof.Machine
end

