-- ==== Sys2Proof/Machine/Operands.lean ====
section
/-! DEFINITION. The composed command patterns of 20_memory.md R76 that depend on an operand or on
nothing, and the slot check of CREATE_CHAR. (The pattern that depends on the flags, EMS, is in
Flags.lean.) -/

namespace Sys2Proof.Machine

/-- `FS_INIT`: 4-bit, 2-line, 5x8 font (R76). -/
def fsInit : Byte := romFunctionSet ||| romTwoLine

/-- `DC_INIT`: display on, cursor off, blink off (R76). -/
def dcInit : Byte := romDisplayControl ||| romDisplayOn

/-- `SCROLL_L`: display move, left (R76). -/
def scrollL : Byte := romCursorShift ||| romDisplayMove

/-- `SCROLL_R`: display move, right (R76). -/
def scrollR : Byte := romCursorShift ||| romDisplayMove ||| romMoveRight

/-- `slot < 8`: the slot is one of the eight CGRAM slots (40_sequencer.md R112, 60_exceptions.md
R243). -/
def slotOk (slot : Byte) : Bool := decide (slot.toNat < 8)

/-- `CGRAM_ADDR(slot)`, the slot's low three bits times 8 (R76). -/
def cgramAddr (slot : Byte) : Byte := romSetCgramAddr ||| ((slot.extractLsb' 0 3).setWidth 8 <<< 3)

/-- The 7-bit DDRAM address of a line and a column; the sum wraps at 7 bits (30_encoding.md
R92). -/
def ddramSum (c : Config) (line : BitVec 2) (col : BitVec 7) : BitVec 7 := lineOffset c line + col

/-- `DDRAM_ADDR(line, col)` (R76). -/
def ddramAddr (c : Config) (line : BitVec 2) (col : BitVec 7) : Byte :=
  romSetDdramAddr ||| (ddramSum c line col).setWidth 8

end Sys2Proof.Machine
end

