-- ==== Sys2Proof/Syntax.lean ====
section
/-! DEFINITION. The instruction set: one constructor per row of spec/opcode_table.json
(30_encoding.md R81). The "instruction set" of this block is its request set (00_scope.md R1).

Every operand has the width of the field its rule reads (30_encoding.md R92), so an `Instr` is
well-formed by its types. What can be ill-formed is a line of assembler source, whose operands are
plain numbers: see WellFormed.lean. -/

namespace Sys2Proof

/-- A decoded request. -/
inductive Instr where
  /-- `OP = 0x0`, INIT (42_init.md R160): open the bus at `addr` and initialise the controller. -/
  | init (addr : DevAddr)
  /-- `OP = 0x1`, CLEAR (43_operations.md R180). -/
  | clear
  /-- `OP = 0x2`, HOME (43_operations.md R191). -/
  | home
  /-- `OP = 0x3`, SET_CURSOR (43_operations.md R181). -/
  | setCursor (line : BitVec 2) (col : BitVec 7)
  /-- `OP = 0x4`, WRITE_CHAR (43_operations.md R182). -/
  | writeChar (c : Byte)
  /-- `OP = 0x5`, BACKLIGHT (43_operations.md R183). -/
  | backlight (on : Bool)
  /-- `OP = 0x6`, SCROLL_LEFT (43_operations.md R184). -/
  | scrollLeft
  /-- `OP = 0x7`, SCROLL_RIGHT (43_operations.md R185). -/
  | scrollRight
  /-- `OP = 0x8`, ENTRY_LEFT (43_operations.md R186). -/
  | entryLeft
  /-- `OP = 0x9`, ENTRY_RIGHT (43_operations.md R187). -/
  | entryRight
  /-- `OP = 0xA`, AUTO_SCROLL (43_operations.md R188). -/
  | autoScroll
  /-- `OP = 0xB`, NO_AUTO_SCROLL (43_operations.md R189). -/
  | noAutoScroll
  /-- `OP = 0xC`, CREATE_CHAR (43_operations.md R190): slot and the glyph rows 0 to 7. -/
  | createChar (slot r0 r1 r2 r3 r4 r5 r6 r7 : Byte)
  /-- `OP = 0xD`, SEND_BYTE (41_nibble_encoder.md R146). -/
  | sendByte (v : Byte) (m : Mode)
  /-- `OP = 0xE`, reserved (30_encoding.md R87, 60_exceptions.md R245). -/
  | reservedE
  /-- `OP = 0xF`, reserved (30_encoding.md R87, 60_exceptions.md R245). -/
  | reservedF
deriving DecidableEq, Repr

end Sys2Proof
end

