-- ==== Sys2Proof/WellFormed.lean ====
section
/-! DEFINITION. The checks. An `Instr` needs none: its operands have their fields' widths. What can
be ill-formed is a configuration (the constraint column of 00_scope.md R4) and a line of assembler
source (the operand ranges of 30_encoding.md R93 and R94). -/

namespace Sys2Proof

/-- A parameter that counts cycles is at least 1 and at least `ceil (num / den seconds × CLK_HZ)`,
said without rounding (R4). -/
def Config.longEnough (clkHz num den n : Nat) : Bool :=
  decide (1 ≤ n) && decide (num * clkHz ≤ n * den)

/-- The four control bits are distinct and in 0..3 (R4). -/
def Config.bitsOk (c : Config) : Bool :=
  decide (c.rsBit < 4) && decide (c.rwBit < 4) && decide (c.enBit < 4) && decide (c.blBit < 4) &&
  decide (c.rsBit ≠ c.rwBit) && decide (c.rsBit ≠ c.enBit) && decide (c.rsBit ≠ c.blBit) &&
  decide (c.rwBit ≠ c.enBit) && decide (c.rwBit ≠ c.blBit) && decide (c.enBit ≠ c.blBit)

/-- `2^CNT_W` exceeds each of the five waits (R4). -/
def Config.counterOk (c : Config) : Bool :=
  decide (c.nHoldHi < 2 ^ c.cntW) && decide (c.nHoldLo < 2 ^ c.cntW) &&
  decide (c.nPoweron < 2 ^ c.cntW) && decide (c.nInitWait < 2 ^ c.cntW) &&
  decide (c.nClear < 2 ^ c.cntW)

/-- Each wait meets its time bound: 5 µs, 80 µs, 300 ms, 5 ms, 1.5 ms (R4). -/
def Config.waitsOk (c : Config) : Bool :=
  Config.longEnough c.clkHz 5 1000000 c.nHoldHi && Config.longEnough c.clkHz 80 1000000 c.nHoldLo &&
  Config.longEnough c.clkHz 300 1000 c.nPoweron && Config.longEnough c.clkHz 5 1000 c.nInitWait &&
  Config.longEnough c.clkHz 15 10000 c.nClear

/-- A valid configuration: every constraint of R4. An invalid one must not be instantiated
(93_implementation_defined.md U14). -/
def Config.valid (c : Config) : Bool :=
  decide (0 < c.clkHz) && c.waitsOk && c.counterOk && c.bitsOk

/-- One line of assembler source with its operands as the plain numbers written there
(30_encoding.md R93), the pseudo-instructions of R94 among them. -/
inductive AsmLine where
  /-- `INIT addr`. -/
  | init (addr : Nat)
  /-- `INIT` with no operand (R94). -/
  | initDefault
  /-- `CLEAR`. -/
  | clear
  /-- `HOME`. -/
  | home
  /-- `SET_CURSOR line, col`. -/
  | setCursor (line col : Nat)
  /-- `WRITE_CHAR byte`. -/
  | writeChar (byte : Nat)
  /-- `BACKLIGHT on`. -/
  | backlight (on : Nat)
  /-- `SCROLL_LEFT`. -/
  | scrollLeft
  /-- `SCROLL_RIGHT`. -/
  | scrollRight
  /-- `ENTRY_LEFT`. -/
  | entryLeft
  /-- `ENTRY_RIGHT`. -/
  | entryRight
  /-- `AUTO_SCROLL`. -/
  | autoScroll
  /-- `NO_AUTO_SCROLL`. -/
  | noAutoScroll
  /-- `CREATE_CHAR slot, r0, …, r7`. -/
  | createChar (slot r0 r1 r2 r3 r4 r5 r6 r7 : Nat)
  /-- `SEND_BYTE byte, mode` with mode CMD (0) or CHR (1). -/
  | sendByte (byte mode : Nat)
  /-- `WRITE_TEXT "s"` (R94): the character codes of the string. -/
  | writeText (codes : List Nat)
  /-- `WRITE_GLYPH i` (R94). -/
  | writeGlyph (i : Nat)
  /-- `BACKLIGHT_ON` (R94). -/
  | backlightOn
  /-- `BACKLIGHT_OFF` (R94). -/
  | backlightOff
deriving DecidableEq, Repr

/-- Every operand is in its field's range (R93; for the pseudo-instructions R94). -/
def AsmLine.wf : AsmLine → Bool
  | .init addr => decide (addr ≤ 0x7F)
  | .setCursor line col => decide (line ≤ 3) && decide (col ≤ 127)
  | .writeChar byte => decide (byte ≤ 255)
  | .backlight on => decide (on ≤ 1)
  | .createChar slot r0 r1 r2 r3 r4 r5 r6 r7 =>
      [slot, r0, r1, r2, r3, r4, r5, r6, r7].all (fun n => decide (n ≤ 255))
  | .sendByte byte mode => decide (byte ≤ 255) && decide (mode ≤ 1)
  | .writeText codes => codes.all (fun n => decide (n ≤ 255))
  | .writeGlyph i => decide (i ≤ 7)
  | .initDefault => true
  | .clear => true
  | .home => true
  | .scrollLeft => true
  | .scrollRight => true
  | .entryLeft => true
  | .entryRight => true
  | .autoScroll => true
  | .noAutoScroll => true
  | .backlightOn => true
  | .backlightOff => true

end Sys2Proof
end

