-- ==== Sys2Proof/Decode.lean ====
section
/-! DEFINITION. The request word (30_encoding.md R80 to R92): its fields, the decoder, total on all
88-bit words, and after it the encoder, written from the same table. The reserved opcodes 0xE and
0xF decode to constructors of their own, which are rejected by name with BAD_OP when they run
(R87). -/

namespace Sys2Proof

/-- `OP = REQ[3:0]` (R80). -/
def opOf (w : ReqWord) : BitVec 4 := w.extractLsb' 0 4

/-- `M = REQ[4]` (R80). -/
def mOf (w : ReqWord) : Bool := w.getLsbD 4

/-- `A = REQ[15:8]` (R80). -/
def aOf (w : ReqWord) : Byte := w.extractLsb' 8 8

/-- `B = REQ[23:16]` (R80). -/
def bOf (w : ReqWord) : Byte := w.extractLsb' 16 8

/-- `G = REQ[87:24]` (R80). -/
def gOf (w : ReqWord) : BitVec 64 := w.extractLsb' 24 64

/-- Glyph row `i` is `G[8i+7:8i]` (R85). -/
def rowOf (w : ReqWord) (i : Nat) : Byte := (gOf w).extractLsb' (8 * i) 8

/-- The mode the bit `M` names: 1 is character, 0 is command (R82). -/
def modeOfBit : Bool → Mode
  | true => .character
  | false => .command

/-- The bit of a mode (R82, 41_nibble_encoder.md R143). -/
def modeBit : Mode → Bool
  | .character => true
  | .command => false

/-- The instruction of a request word (R81, operands R92). The last arm is `OP = 0xF`: 4 bits have
no other value. -/
def decode (w : ReqWord) : Instr :=
  match (opOf w).toNat with
  | 0x0 => .init ((aOf w).extractLsb' 0 7)
  | 0x1 => .clear
  | 0x2 => .home
  | 0x3 => .setCursor ((aOf w).extractLsb' 0 2) ((bOf w).extractLsb' 0 7)
  | 0x4 => .writeChar (aOf w)
  | 0x5 => .backlight (mOf w)
  | 0x6 => .scrollLeft
  | 0x7 => .scrollRight
  | 0x8 => .entryLeft
  | 0x9 => .entryRight
  | 0xA => .autoScroll
  | 0xB => .noAutoScroll
  | 0xC => .createChar (aOf w) (rowOf w 0) (rowOf w 1) (rowOf w 2) (rowOf w 3) (rowOf w 4)
      (rowOf w 5) (rowOf w 6) (rowOf w 7)
  | 0xD => .sendByte (aOf w) (modeOfBit (mOf w))
  | 0xE => .reservedE
  | _ => .reservedF

/-- A request word from its fields, `REQ[7:5] = 0` (R80); the short form `OP/M/A/B/G` of R93. -/
def wordOf (op : BitVec 4) (m : Bool) (a b : Byte) (g : BitVec 64) : ReqWord :=
  op.setWidth 88 ||| ((BitVec.ofBool m).setWidth 88 <<< 4) ||| (a.setWidth 88 <<< 8) |||
  (b.setWidth 88 <<< 16) ||| (g.setWidth 88 <<< 24)

/-- The eight glyph rows as the field `G`, row 0 lowest (R85). -/
def glyphOf (r0 r1 r2 r3 r4 r5 r6 r7 : Byte) : BitVec 64 :=
  r0.setWidth 64 ||| (r1.setWidth 64 <<< 8) ||| (r2.setWidth 64 <<< 16) |||
  (r3.setWidth 64 <<< 24) ||| (r4.setWidth 64 <<< 32) ||| (r5.setWidth 64 <<< 40) |||
  (r6.setWidth 64 <<< 48) ||| (r7.setWidth 64 <<< 56)

/-- The word of an instruction; unused fields assemble as 0 (R93). -/
def encode : Instr → ReqWord
  | .init addr => wordOf 0x0 false (addr.setWidth 8) 0 0
  | .clear => wordOf 0x1 false 0 0 0
  | .home => wordOf 0x2 false 0 0 0
  | .setCursor line col => wordOf 0x3 false (line.setWidth 8) (col.setWidth 8) 0
  | .writeChar c => wordOf 0x4 false c 0 0
  | .backlight on => wordOf 0x5 on 0 0 0
  | .scrollLeft => wordOf 0x6 false 0 0 0
  | .scrollRight => wordOf 0x7 false 0 0 0
  | .entryLeft => wordOf 0x8 false 0 0 0
  | .entryRight => wordOf 0x9 false 0 0 0
  | .autoScroll => wordOf 0xA false 0 0 0
  | .noAutoScroll => wordOf 0xB false 0 0 0
  | .createChar slot r0 r1 r2 r3 r4 r5 r6 r7 =>
      wordOf 0xC false slot 0 (glyphOf r0 r1 r2 r3 r4 r5 r6 r7)
  | .sendByte v m => wordOf 0xD (modeBit m) v 0 0
  | .reservedE => wordOf 0xE false 0 0 0
  | .reservedF => wordOf 0xF false 0 0 0

/-- The operation code of an instruction (R81). -/
def opcode : Instr → BitVec 4
  | .init _ => 0x0
  | .clear => 0x1
  | .home => 0x2
  | .setCursor _ _ => 0x3
  | .writeChar _ => 0x4
  | .backlight _ => 0x5
  | .scrollLeft => 0x6
  | .scrollRight => 0x7
  | .entryLeft => 0x8
  | .entryRight => 0x9
  | .autoScroll => 0xA
  | .noAutoScroll => 0xB
  | .createChar _ _ _ _ _ _ _ _ _ => 0xC
  | .sendByte _ _ => 0xD
  | .reservedE => 0xE
  | .reservedF => 0xF

/-- The bits an operation reads, its `OP` among them (R81, R82 to R85); the others are ignored
(R86). -/
def readMask (op : BitVec 4) : ReqWord :=
  match op.toNat with
  | 0x0 => 0x7F0F
  | 0x3 => 0x7F030F
  | 0x4 => 0xFF0F
  | 0x5 => 0x1F
  | 0xC => 0xFFFFFFFFFFFFFFFF00FF0F
  | 0xD => 0xFF1F
  | _ => 0xF

/-- The instruction read from a request of `nbits` bits `w`, the bits above them zero. A request is
one 88-bit word on a parallel port, so it has no byte order; more than 88 bits are no request
(R91, log entry 11). -/
def decodeTableWord (nbits w : Nat) : Option Instr :=
  if nbits ≤ 88 then some (decode (BitVec.ofNat 88 (w % 2 ^ nbits))) else none

end Sys2Proof
end

