-- ==== Sys2Proof/Machine/State.lean ====
section
/-! DEFINITION. The state of the block (10_state.md R20 to R34), as plain data, and the reasons a
step can stop. INVENTORY.md lists every field with its rule and reset value. -/

namespace Sys2Proof.Machine

/-- The phase `PH` (40_sequencer.md R113). -/
inductive Phase where
  /-- `IDLE`: no job. -/
  | idle
  /-- `OPEN`: the BusOpen step waits for the transport. -/
  | openBus
  /-- `WRITE`: one bus write of the current unit is in progress. -/
  | write
  /-- `HOLD`: a timed wait. -/
  | hold
deriving DecidableEq, Repr

/-- The register `U`: which unit of the current Byte step (10_state.md R30). -/
inductive UnitSel where
  /-- `U = 0`. -/
  | high
  /-- `U = 1`. -/
  | low
deriving DecidableEq, Repr

/-- The register `W`: which write of the current unit (10_state.md R30; log entry 12). -/
inductive WriteSel where
  /-- `W = 0`, the data write. -/
  | data
  /-- `W = 1`, the enable-high write. -/
  | enHigh
  /-- `W = 2`, the enable-low write. -/
  | enLow
deriving DecidableEq, Repr

/-- One step of a job (00_scope.md R8). The register writes R8 also allows are the acceptance
updates and the end of the job: no job of the spec lists one as a step (log entry 12). -/
inductive JobStep where
  /-- `Byte(v, m)` (41_nibble_encoder.md R142). -/
  | byte (v : Byte) (m : Mode)
  /-- `Hold(n)` (40_sequencer.md R115). -/
  | hold (n : Nat)
  /-- `BusOpen(a)` (20_memory.md R54). -/
  | busOpen (a : DevAddr)
deriving DecidableEq, Repr

/-- One event of the bus trace (60_exceptions.md R256), as the block offered it and the transport
completed it (R249; log entry 6). -/
inductive BusEvent where
  /-- The bus open at an address, with its result. -/
  | opened (a : DevAddr) (ok : Bool)
  /-- One single-byte bus write. -/
  | write (a : DevAddr) (b : Byte)
deriving DecidableEq, Repr

/-- The causes of 60_exceptions.md R241. -/
inductive Cause where
  /-- INIT_BUS_FAIL (R242). -/
  | initBusFail
  /-- BAD_SLOT (R243). -/
  | badSlot
  /-- NOT_INIT (R244). -/
  | notInit
  /-- BAD_OP (R245). -/
  | badOp
deriving DecidableEq, Repr

/-- The state of the block, with the model's own fields last. -/
structure State where
  /-- `BL`, the backlight flag (R22). -/
  bl : Bool
  /-- `ID`, the entry-mode direction flag: true is left-to-right (R23). -/
  id : Bool
  /-- `SH`, the entry-mode auto-shift flag (R24). -/
  sh : Bool
  /-- `ADDR`, the device address (R25). -/
  addr : DevAddr
  /-- `INITIALIZED` (R26). -/
  initialized : Bool
  /-- `ERR_INIT`, sticky (R27). -/
  errInit : Bool
  /-- `ERR_SLOT`, sticky (R27). -/
  errSlot : Bool
  /-- `ERR_NOINIT`, sticky (R27). -/
  errNoinit : Bool
  /-- `ERR_OP`, sticky (R27). -/
  errOp : Bool
  /-- `PH` (R30). -/
  ph : Phase
  /-- `REQ`, the request word latched at acceptance (R30). -/
  req : ReqWord
  /-- `JOB` (R30). -/
  job : List JobStep
  /-- `STEP`, the index of the current step (R30). -/
  stepIx : BitVec 4
  /-- `U` (R30). -/
  u : UnitSel
  /-- `W` (R30). -/
  w : WriteSel
  /-- `CNT`, cycles left in the current hold, kept below `2 ^ CNT_W` (R30; log entry 9). -/
  cnt : Nat
  /-- `DV`, drives `diag_valid` (R34). -/
  dv : Bool
  /-- `DC`, drives `diag_code` (R34). -/
  dc : BitVec 3
  /-- MODEL'S OWN: the parameters (00_scope.md R4), never written (log entry 5). -/
  cfg : Config
  /-- MODEL'S OWN: the scripted pins of the coming edges, oldest first (log entry 3). -/
  stim : List Inputs
  /-- MODEL'S OWN: how many free values have been drawn (log entry 4). -/
  draws : Nat
  /-- MODEL'S OWN: the bus trace so far, oldest first (log entry 6). -/
  trace : List BusEvent
deriving DecidableEq, Repr

/-- The rows that the transition table does not list (40_sequencer.md R121): no run of a valid
configuration reaches one, and a model may treat reaching one as a fault (R115). All are SAFE: the
model stops where the spec says nothing (log entry 8). -/
inductive Fault where
  /-- Raised by `holdEdge`: `CNT = 0` in HOLD (R115). Safe. -/
  | holdCountZero
  /-- Raised by `holdEdge`: `CNT = 1` in HOLD in a row R121 does not list (the step is no Hold or
  Byte, or a Byte with `W = 0`). Safe. -/
  | holdRowUnlisted
  /-- Raised by `advance`: `STEP + 1` is past the end of `JOB` (R119). Safe. -/
  | jobOverrun
deriving DecidableEq, Repr

/-- The refusals. No meaning of this model ends in one. -/
inductive Refusal where
  /-- Raised only by an arm of `exec` for an instruction that has no meaning yet: there is none.
  Safe. -/
  | notModelled (mnemonic : String)
deriving DecidableEq, Repr

/-- The machine right after reset (10_state.md, section 6; 70_reset_and_hazards.md R270), in the
reference configuration. `addr` and `req` have no reset value in the spec: 0 is a DESIGN CHOICE
(log entries 1 and 2). -/
def State.reset : State where
  bl := true
  id := true
  sh := false
  addr := 0
  initialized := false
  errInit := false
  errSlot := false
  errNoinit := false
  errOp := false
  ph := .idle
  req := 0
  job := []
  stepIx := 0
  u := .high
  w := .data
  cnt := 0
  dv := false
  dc := 0
  cfg := referenceConfig
  stim := []
  draws := 0
  trace := []

end Sys2Proof.Machine
end

