-- ==== Sys2Proof/Machine/Encoder.lean ====
section
/-! DEFINITION. The nibble encoder (41_nibble_encoder.md R140 to R145) and the three bytes of a unit
(30_encoding.md R89). -/

namespace Sys2Proof.Machine

/-- The control bits of a unit: the mode mux (R143) and the backlight OR (R144), nothing else
(R145). -/
def controlBits (c : Config) (m : Mode) (bl : Bool) : Byte :=
  (if modeBit m then rsMask c else 0) ||| (if bl then blMask c else 0)

/-- `EncHi(v, m, bl)` (R140). -/
def encHi (c : Config) (v : Byte) (m : Mode) (bl : Bool) : Byte :=
  (v &&& 0xF0) ||| controlBits c m bl

/-- `EncLo(v, m, bl)` (R141). -/
def encLo (c : Config) (v : Byte) (m : Mode) (bl : Bool) : Byte :=
  ((v <<< 4) &&& 0xF0) ||| controlBits c m bl

/-- The unit byte `T` that `U` selects (40_sequencer.md R122). -/
def unitByte (c : Config) (v : Byte) (m : Mode) (bl : Bool) : UnitSel → Byte
  | .high => encHi c v m bl
  | .low => encLo c v m bl

/-- The byte that `W` selects of a unit `t`: the data write, the enable-high write, the enable-low
write (R89, 40_sequencer.md R116, R117, R122). -/
def writeByte (c : Config) (t : Byte) : WriteSel → Byte
  | .data => t
  | .enHigh => t ||| enMask c
  | .enLow => t &&& ~~~ enMask c

end Sys2Proof.Machine
end

