-- ==== Sys2Proof/Machine/Flags.lean ====
section
/-! DEFINITION. Everything the block computes from or writes to its flags: the entry-mode-set
pattern (20_memory.md R76), the sticky error bits (10_state.md R27) and the status register
(R28, R29). -/

namespace Sys2Proof.Machine

/-- `EMS(ID, SH)`, the entry-mode-set command byte (R76). -/
def ems (id sh : Bool) : Byte :=
  romEntryModeSet ||| (if id then romEntryLeft else 0) ||| (if sh then romEntryShift else 0)

/-- `BL <- on` (43_operations.md R183). -/
def setBl (on : Bool) (s : State) : State := { s with bl := on }

/-- `ID <- v` (43_operations.md R186, R187). -/
def setId (v : Bool) (s : State) : State := { s with id := v }

/-- `SH <- v` (43_operations.md R188, R189). -/
def setSh (v : Bool) (s : State) : State := { s with sh := v }

/-- `INITIALIZED <- v` (42_init.md R160, R163). -/
def setInitialized (v : Bool) (s : State) : State := { s with initialized := v }

/-- Set the sticky bit of a cause (R27, 60_exceptions.md R241). -/
def setSticky : Cause → State → State
  | .initBusFail, s => { s with errInit := true }
  | .badSlot, s => { s with errSlot := true }
  | .notInit, s => { s with errNoinit := true }
  | .badOp, s => { s with errOp := true }

/-- `BUSY`, not stored (R28). -/
def busy (s : State) : Bool := decide (s.ph ≠ .idle)

/-- A flag at its bit of `STATUS`. -/
def statusBit (bit : Nat) (flag : Bool) : BitVec 16 := (BitVec.ofBool flag).setWidth 16 <<< bit

/-- `STATUS` (R29): the reserved bits 7:5 and 15:12 read 0. -/
def status (s : State) : BitVec 16 :=
  statusBit 0 s.initialized ||| statusBit 1 (busy s) ||| statusBit 2 s.bl ||| statusBit 3 s.id |||
  statusBit 4 s.sh ||| statusBit 8 s.errInit ||| statusBit 9 s.errSlot |||
  statusBit 10 s.errNoinit ||| statusBit 11 s.errOp

end Sys2Proof.Machine
end

