-- ==== Sys2Proof/Machine/Outputs.lean ====
section
/-! DEFINITION. The output ports, decoded from the state (10_state.md R32, 40_sequencer.md R122), each
with a value in every cycle, also where R32 calls it meaningless. -/

namespace Sys2Proof.Machine

/-- `JOB[STEP]` (40_sequencer.md R121). -/
def currentStep (s : State) : Option JobStep := s.job[s.stepIx.toNat]?

/-- The pins at the coming edge: the oldest scripted ones, else a draw (log entry 3). -/
def pins (s : State) : Inputs :=
  match s.stim with
  | inp :: _ => inp
  | [] => Config.freeInputs s.draws

/-- `req_ready = (PH == IDLE) and not rst`. -/
def reqReady (s : State) : Bool := decide (s.ph = .idle) && !(pins s).rst

/-- `bw_valid = (PH == WRITE)`. -/
def bwValid (s : State) : Bool := decide (s.ph = .write)

/-- The current unit byte `T`: the encoder's on a Byte step; on any other step, or none, R122 gives
none, and it is a free value of `STEP` (log entry 13); `CNT` is on no port (60_exceptions.md R253). -/
def currentUnit (s : State) : Byte :=
  match currentStep s with
  | some (.byte v m) => unitByte s.cfg v m s.bl s.u
  | some (.hold _) => Config.freeUnit s.stepIx.toNat
  | some (.busOpen _) => Config.freeUnit s.stepIx.toNat
  | none => Config.freeUnit s.stepIx.toNat

/-- `bw_data`: the byte that `W` selects of the current unit, in every cycle; meaningful only while
`bw_valid = 1`. -/
def bwData (s : State) : Byte := writeByte s.cfg (currentUnit s) s.w

/-- `bw_addr = ADDR`, in every cycle; meaningful only while `bw_valid = 1`. -/
def bwAddr (s : State) : DevAddr := s.addr

/-- `bo_req = (PH == OPEN)`. -/
def boReq (s : State) : Bool := decide (s.ph = .openBus)

/-- `bo_addr = ADDR`, in every cycle; meaningful only while `bo_req = 1`. -/
def boAddr (s : State) : DevAddr := s.addr

/-- `diag_valid = DV`. -/
def diagValid (s : State) : Bool := s.dv

/-- `diag_code = DC`. -/
def diagCode (s : State) : BitVec 3 := s.dc

/-- All output ports in one cycle. -/
structure Outputs where
  /-- `req_ready`. -/
  reqReady : Bool
  /-- `bw_valid`. -/
  bwValid : Bool
  /-- `bw_addr`. -/
  bwAddr : DevAddr
  /-- `bw_data`. -/
  bwData : Byte
  /-- `bo_req`. -/
  boReq : Bool
  /-- `bo_addr`. -/
  boAddr : DevAddr
  /-- `status`. -/
  status : BitVec 16
  /-- `diag_valid`. -/
  diagValid : Bool
  /-- `diag_code`. -/
  diagCode : BitVec 3
deriving DecidableEq, Repr

/-- The output ports of a state (R122). -/
def outputs (s : State) : Outputs where
  reqReady := reqReady s
  bwValid := bwValid s
  bwAddr := bwAddr s
  bwData := bwData s
  boReq := boReq s
  boAddr := boAddr s
  status := status s
  diagValid := diagValid s
  diagCode := diagCode s

end Sys2Proof.Machine
end

