-- ==== Sys2Proof/Machine/Ops.lean ====
section
/-! DEFINITION. The shared operations of an edge: reading the pins, the record of the bus, the
reset, `raise` (60_exceptions.md R240, the block's one way to take an error, from which it needs no
return, R248), starting a job or a step (40_sequencer.md R112), advancing and ending a job
(R119, R120). -/

namespace Sys2Proof.Machine

/-- The pins of this edge are used up: the script moves on, or one more draw has been made (log
entries 3 and 4). -/
def consume (s : State) : State :=
  { s with stim := s.stim.tail, draws := if s.stim = [] then s.draws + 1 else s.draws }

/-- What the transport completes in this cycle joins the bus trace: in WRITE the current write when
`bw_done = 1`, in OPEN the open with its result when `bo_done = 1` (20_memory.md R51, R54). Done
signals outside their phase are ignored. -/
def observeBus (inp : Inputs) (s : State) : State :=
  match s.ph with
  | .write =>
    if inp.bwDone then { s with trace := s.trace ++ [.write (bwAddr s) (bwData s)] } else s
  | .openBus =>
    if inp.boDone then { s with trace := s.trace ++ [.opened (boAddr s) inp.boOk] } else s
  | .idle => s
  | .hold => s

/-- `DV <- 0`, at every edge where no raise happens (10_state.md R34). -/
def clearDv (s : State) : State := { s with dv := false }

/-- `REQ <- req_word` (40_sequencer.md R111). -/
def latchReq (word : ReqWord) (s : State) : State := { s with req := word }

/-- What every edge with `rst = 0` does around the phase's own row: the pins are used up, what the
transport completed joins the trace, and `DV` falls (10_state.md R34). -/
def beginEdge (s : State) : State := clearDv (observeBus (pins s) (consume s))

/-- A request is accepted at this edge: `PH = IDLE` and `req_valid = 1` (40_sequencer.md R111; the
step has ruled out `rst = 1` before). -/
def accepts (inp : Inputs) (s : State) : Bool := decide (s.ph = .idle) && inp.reqValid

/-- The pins of a host that presents a request, with no reset and no answer of the transport. -/
def presenting (word : ReqWord) : Inputs where
  rst := false
  reqValid := true
  reqWord := word
  bwDone := false
  boDone := false
  boOk := false

/-- An edge with `rst = 1`: every element of the block takes its reset value, `ADDR` and `REQ` a
free value (70_reset_and_hazards.md R270; log entries 1 and 2). The parameters, the script and the
record outside the block stay (log entries 5 and 6). -/
def resetEdge (s : State) : State :=
  { State.reset with
    addr := Config.freeAddr s.draws
    req := Config.freeReq s.draws
    cfg := s.cfg
    stim := s.stim
    draws := s.draws + 1
    trace := s.trace }

/-- The diagnostic code of a cause (60_exceptions.md R241). -/
def causeCode : Cause → BitVec 3
  | .initBusFail => 1
  | .badSlot => 2
  | .notInit => 3
  | .badOp => 4

/-- `raise <Cause>`: the cause's sticky bit, the diagnostic pulse, `PH = IDLE`, and nothing else
(60_exceptions.md R240). -/
def raise (c : Cause) (s : State) : State :=
  { setSticky c s with dv := true, dc := causeCode c, ph := .idle }

/-- `CNT <- n`, on the counter's `CNT_W` bits (10_state.md R30; log entry 9). -/
def loadCount (c : Config) (n : Nat) : Nat := n % 2 ^ c.cntW

/-- Enter HOLD for `n` cycles (40_sequencer.md R115). -/
def enterHold (n : Nat) (s : State) : State := { s with ph := .hold, cnt := loadCount s.cfg n }

/-- Enter WRITE for one write of one unit. -/
def enterWrite (u : UnitSel) (w : WriteSel) (s : State) : State := { s with ph := .write, u := u, w := w }

/-- `start(step)` (40_sequencer.md R112). -/
def start (st : JobStep) (s : State) : State :=
  match st with
  | .byte _ _ => enterWrite .high .data s
  | .hold n => enterHold n s
  | .busOpen _ => { s with ph := .openBus }

/-- `JOB <- first :: rest; STEP <- 0; start(JOB[0])` (40_sequencer.md R112): a job has at least one
step. -/
def beginJob (first : JobStep) (rest : List JobStep) (s : State) : State :=
  start first { s with job := first :: rest, stepIx := 0 }

/-- `end_job()` (40_sequencer.md R120). -/
def endJob (s : State) : State :=
  { s with ph := .idle, initialized := if opOf s.req = 0x0 then true else s.initialized }

/-- `advance()` (40_sequencer.md R119). -/
def advance (s : State) : Host.Outcome State Fault Refusal :=
  if s.stepIx.toNat + 1 = s.job.length then .next (endJob s)
  else
    match s.job[s.stepIx.toNat + 1]? with
    | some st => .next (start st { s with stepIx := s.stepIx + 1 })
    | none => .fault .jobOverrun

/-- The check every request but INIT and the reserved ones makes first at acceptance: NOT_INIT is
raised unless `INITIALIZED = 1` (60_exceptions.md R244). `t` is the state the request takes. -/
def ifInitialized (s t : State) : Host.Outcome State Fault Refusal :=
  if s.initialized then .next t else .next (raise .notInit s)

end Sys2Proof.Machine
end

