-- ==== Sys2Proof/Machine/Init.lean ====
section
/-! DEFINITION. INIT (42_init.md R160 to R165). -/

namespace Sys2Proof.Machine

/-- The eleven steps of INIT's job after the bus open, in their normative order (R160, R161). -/
def initSteps (c : Config) (id sh : Bool) : List JobStep :=
  [.hold c.nPoweron,
   .byte romInitReset .command,
   .hold c.nInitWait,
   .byte romInitReset .command,
   .byte romInitReset .command,
   .byte romInit4Bit .command,
   .byte fsInit .command,
   .byte dcInit .command,
   .byte romClearDisplay .command,
   .hold c.nClear,
   .byte (ems id sh) .command]

/-- INIT: `ADDR <- A[6:0]`, `INITIALIZED <- 0`, then the job. Never rejected with NOT_INIT (R165,
60_exceptions.md R244). -/
def execInit (addr : DevAddr) (s : State) : Host.Outcome State Fault Refusal :=
  let s1 := setInitialized false { s with addr := addr }
  .next (beginJob (.busOpen s1.addr) (initSteps s1.cfg s1.id s1.sh) s1)

end Sys2Proof.Machine
end

