-- ==== Sys2Proof/Machine/Operations.lean ====
section
/-! DEFINITION. The public operations (43_operations.md R180 to R191), each with its acceptance
updates and its job. -/

namespace Sys2Proof.Machine

/-- CLEAR (R180). -/
def execClear (s : State) : Host.Outcome State Fault Refusal :=
  ifInitialized s (beginJob (.byte romClearDisplay .command) [.hold s.cfg.nClear] s)

/-- HOME (R191). -/
def execHome (s : State) : Host.Outcome State Fault Refusal :=
  ifInitialized s (beginJob (.byte romReturnHome .command) [.hold s.cfg.nClear] s)

/-- SET_CURSOR (R181). -/
def execSetCursor (line : BitVec 2) (col : BitVec 7) (s : State) :
    Host.Outcome State Fault Refusal :=
  ifInitialized s (beginJob (.byte (ddramAddr s.cfg line col) .command) [] s)

/-- WRITE_CHAR (R182). -/
def execWriteChar (c : Byte) (s : State) : Host.Outcome State Fault Refusal :=
  ifInitialized s (beginJob (.byte c .character) [] s)

/-- BACKLIGHT (R183): the flag, then the NOP that carries it to the bus. -/
def execBacklight (on : Bool) (s : State) : Host.Outcome State Fault Refusal :=
  ifInitialized s (beginJob (.byte romNop .command) [] (setBl on s))

/-- SCROLL_LEFT (R184). -/
def execScrollLeft (s : State) : Host.Outcome State Fault Refusal :=
  ifInitialized s (beginJob (.byte scrollL .command) [] s)

/-- SCROLL_RIGHT (R185). -/
def execScrollRight (s : State) : Host.Outcome State Fault Refusal :=
  ifInitialized s (beginJob (.byte scrollR .command) [] s)

/-- The job of the four entry-mode requests: re-send entry-mode-set with the flags as they stand
after the update (R186 to R189). -/
def sendEntryMode (s : State) : State := beginJob (.byte (ems s.id s.sh) .command) [] s

/-- ENTRY_LEFT (R186). -/
def execEntryLeft (s : State) : Host.Outcome State Fault Refusal :=
  ifInitialized s (sendEntryMode (setId true s))

/-- ENTRY_RIGHT (R187). -/
def execEntryRight (s : State) : Host.Outcome State Fault Refusal :=
  ifInitialized s (sendEntryMode (setId false s))

/-- AUTO_SCROLL (R188). -/
def execAutoScroll (s : State) : Host.Outcome State Fault Refusal :=
  ifInitialized s (sendEntryMode (setSh true s))

/-- NO_AUTO_SCROLL (R189). -/
def execNoAutoScroll (s : State) : Host.Outcome State Fault Refusal :=
  ifInitialized s (sendEntryMode (setSh false s))

/-- CREATE_CHAR (R190): the slot check comes after NOT_INIT (60_exceptions.md R246). -/
def execCreateChar (slot r0 r1 r2 r3 r4 r5 r6 r7 : Byte) (s : State) :
    Host.Outcome State Fault Refusal :=
  ifInitialized s
    (if slotOk slot then
      beginJob (.byte (cgramAddr slot) .command)
        [.byte r0 .character, .byte r1 .character, .byte r2 .character, .byte r3 .character,
         .byte r4 .character, .byte r5 .character, .byte r6 .character, .byte r7 .character] s
    else raise .badSlot s)

end Sys2Proof.Machine
end

