-- ==== Sys2Proof/Machine/Reserved.lean ====
section
/-! DEFINITION. The two reserved opcodes (30_encoding.md R87, 60_exceptions.md R245): BAD_OP is
raised whatever `INITIALIZED` is. -/

namespace Sys2Proof.Machine

/-- `OP = 0xE`: BAD_OP. -/
def execReservedE (s : State) : Host.Outcome State Fault Refusal := .next (raise .badOp s)

/-- `OP = 0xF`: BAD_OP. -/
def execReservedF (s : State) : Host.Outcome State Fault Refusal := .next (raise .badOp s)

end Sys2Proof.Machine
end

