-- ==== Sys2Proof/Machine/SendByte.lean ====
section
/-! DEFINITION. SEND_BYTE (41_nibble_encoder.md R146). -/

namespace Sys2Proof.Machine

/-- SEND_BYTE: one byte through the encoder, in the mode the request names, with no added hold. -/
def execSendByte (v : Byte) (m : Mode) (s : State) : Host.Outcome State Fault Refusal :=
  ifInitialized s (beginJob (.byte v m) [] s)

end Sys2Proof.Machine
end

