-- ==== Sys2Proof/Machine/Dispatch.lean ====
section
/-! DEFINITION. Dispatch of an accepted request (40_sequencer.md R112): the acceptance edge's effect
of each instruction, less the latching of REQ, which is the step's (R111). -/

namespace Sys2Proof.Machine

def exec (i : Instr) (s : State) : Host.Outcome State Fault Refusal :=
  match i with
  | .init addr => Sys2Proof.Machine.execInit addr s
  | .clear => Sys2Proof.Machine.execClear s
  | .home => Sys2Proof.Machine.execHome s
  | .setCursor line col => Sys2Proof.Machine.execSetCursor line col s
  | .writeChar c => Sys2Proof.Machine.execWriteChar c s
  | .backlight on => Sys2Proof.Machine.execBacklight on s
  | .scrollLeft => Sys2Proof.Machine.execScrollLeft s
  | .scrollRight => Sys2Proof.Machine.execScrollRight s
  | .entryLeft => Sys2Proof.Machine.execEntryLeft s
  | .entryRight => Sys2Proof.Machine.execEntryRight s
  | .autoScroll => Sys2Proof.Machine.execAutoScroll s
  | .noAutoScroll => Sys2Proof.Machine.execNoAutoScroll s
  | .createChar slot r0 r1 r2 r3 r4 r5 r6 r7 => Sys2Proof.Machine.execCreateChar slot r0 r1 r2 r3 r4 r5 r6 r7 s
  | .sendByte v m => Sys2Proof.Machine.execSendByte v m s
  | .reservedE => Sys2Proof.Machine.execReservedE s
  | .reservedF => Sys2Proof.Machine.execReservedF s

end Sys2Proof.Machine
end

