-- ==== Sys2Proof/Machine/Sequencer.lean ====
section
/-! DEFINITION. The phase machine, the rows of 40_sequencer.md R121 for a job in progress: the bus
open (R118), a bus write (R114), a hold (R115), and with them the enable-pulse sequencer (R116,
R117). -/

namespace Sys2Proof.Machine

/-- The rows of OPEN (R118). -/
def openEdge (inp : Inputs) (s : State) : Host.Outcome State Fault Refusal :=
  if inp.boDone then
    if inp.boOk then advance s else .next (raise .initBusFail s)
  else .next s

/-- The rows of WRITE (R114, R116, R117). -/
def writeEdge (inp : Inputs) (s : State) : Host.Outcome State Fault Refusal :=
  if inp.bwDone then
    match s.w with
    | .data => .next { s with w := .enHigh }
    | .enHigh => .next (enterHold s.cfg.nHoldHi s)
    | .enLow => .next (enterHold s.cfg.nHoldLo s)
  else .next s

/-- The rows of HOLD with `CNT = 1`: the hold ends at this edge. -/
def holdEnd (s : State) : Host.Outcome State Fault Refusal :=
  match currentStep s with
  | some (.hold _) => advance s
  | some (.byte _ _) =>
    match s.w, s.u with
    | .enHigh, _ => .next { s with ph := .write, w := .enLow }
    | .enLow, .high => .next (enterWrite .low .data s)
    | .enLow, .low => advance s
    | .data, _ => .fault .holdRowUnlisted
  | some (.busOpen _) => .fault .holdRowUnlisted
  | none => .fault .holdRowUnlisted

/-- The rows of HOLD (R115). -/
def holdEdge (s : State) : Host.Outcome State Fault Refusal :=
  if s.cnt = 0 then .fault .holdCountZero
  else if s.cnt = 1 then holdEnd s
  else .next { s with cnt := s.cnt - 1 }

/-- One edge of a job in progress. In IDLE there is none: nothing changes (R121). -/
def sequencerEdge (inp : Inputs) (s : State) : Host.Outcome State Fault Refusal :=
  match s.ph with
  | .idle => .next s
  | .openBus => openEdge inp s
  | .write => writeEdge inp s
  | .hold => holdEdge s

end Sys2Proof.Machine
end

