-- ==== Sys2Proof/Machine/Step.lean ====
section
/-! DEFINITION. One step: one rising edge of `clk` (40_sequencer.md R110, R121), and the pins that
present a request. -/

namespace Sys2Proof.Machine

/-- One rising edge of `clk`. With `rst = 1` the reset, which overrides the transition function
(70_reset_and_hazards.md R270); in IDLE with `req_valid = 1` acceptance and dispatch (40_sequencer.md
R111, R112); else the phase machine (R121). -/
def step (s : State) : Host.Outcome State Fault Refusal :=
  if (pins s).rst then .next (resetEdge (observeBus (pins s) (consume s)))
  else if accepts (pins s) s then
    exec (decode (pins s).reqWord) (latchReq (pins s).reqWord (beginEdge s))
  else sequencerEdge (pins s) (beginEdge s)

/-- `s` with a request of `nbits` bits `w` presented at its next edge, the bits above them zero, and
the block ready to take it (`PH = IDLE`): the block fetches nothing, requests come in on the port
(10_state.md R21; log entry 3). -/
def State.withFetchWord (s : State) (nbits w : Nat) : State :=
  { s with ph := .idle, stim := presenting (BitVec.ofNat 88 (w % 2 ^ nbits)) :: s.stim }

end Sys2Proof.Machine
end

