-- ==== Sys2Proof/Machine/Assembler.lean ====
section
/-! DEFINITION. The assembler (30_encoding.md R93, R94): a line of text to a checked `AsmLine`, and an
`AsmLine` to its requests. It is no part of the block; the host runs it (log entry 14). -/

namespace Sys2Proof.Machine

/-- The requests a well-formed line stands for (R93, R94); `none` is an assembly error: an operand
out of its field's range is never truncated. -/
def expand (c : Config) (line : AsmLine) : Option (List Instr) :=
  if line.wf then
    some (match line with
    | .init addr => [.init (BitVec.ofNat 7 addr)]
    | .initDefault => [.init c.defaultAddr]
    | .clear => [.clear]
    | .home => [.home]
    | .setCursor l col => [.setCursor (BitVec.ofNat 2 l) (BitVec.ofNat 7 col)]
    | .writeChar b => [.writeChar (BitVec.ofNat 8 b)]
    | .backlight on => [.backlight (decide (on = 1))]
    | .scrollLeft => [.scrollLeft]
    | .scrollRight => [.scrollRight]
    | .entryLeft => [.entryLeft]
    | .entryRight => [.entryRight]
    | .autoScroll => [.autoScroll]
    | .noAutoScroll => [.noAutoScroll]
    | .createChar slot r0 r1 r2 r3 r4 r5 r6 r7 =>
        [.createChar (BitVec.ofNat 8 slot) (BitVec.ofNat 8 r0) (BitVec.ofNat 8 r1)
          (BitVec.ofNat 8 r2) (BitVec.ofNat 8 r3) (BitVec.ofNat 8 r4) (BitVec.ofNat 8 r5)
          (BitVec.ofNat 8 r6) (BitVec.ofNat 8 r7)]
    | .sendByte b mode => [.sendByte (BitVec.ofNat 8 b) (modeOfBit (decide (mode = 1)))]
    | .writeText codes => codes.map (fun ch => .writeChar (BitVec.ofNat 8 ch))
    | .writeGlyph i => [.writeChar (BitVec.ofNat 8 i)]
    | .backlightOn => [.backlight true]
    | .backlightOff => [.backlight false])
  else none

/-- The request words of a line (R93). -/
def assemble (c : Config) (line : AsmLine) : Option (List ReqWord) :=
  (expand c line).map (List.map encode)

/-- A space or a tab. -/
def isBlank (ch : Char) : Bool := decide (ch = ' ') || decide (ch = '\t')

/-- Text without blanks at either end. -/
def trim (cs : List Char) : List Char :=
  ((cs.dropWhile isBlank).reverse.dropWhile isBlank).reverse

/-- Text up to the comment sign `;` (R93). -/
def beforeComment (cs : List Char) : List Char := cs.takeWhile (fun ch => decide (ch ≠ ';'))

/-- The value of a digit in base 16; a decimal number admits those below 10. -/
def digitValue (ch : Char) : Option Nat :=
  if '0' ≤ ch ∧ ch ≤ '9' then some (ch.toNat - 48)
  else if 'a' ≤ ch ∧ ch ≤ 'f' then some (ch.toNat - 87)
  else if 'A' ≤ ch ∧ ch ≤ 'F' then some (ch.toNat - 55)
  else none

/-- The digits of a number in a base, read after the value `acc`. -/
def readDigits (base : Nat) : Nat → List Char → Option Nat
  | acc, [] => some acc
  | acc, ch :: cs =>
    match digitValue ch with
    | some d => if d < base then readDigits base (acc * base + d) cs else none
    | none => none

/-- A number, decimal or `0x` hexadecimal (R93). -/
def readNumber (cs : List Char) : Option Nat :=
  match cs with
  | [] => none
  | '0' :: 'x' :: [] => none
  | '0' :: 'x' :: ds => readDigits 16 0 ds
  | ds => readDigits 10 0 ds

/-- A mode: CMD (0) or CHR (1) (R93); the short names C and D of 41_nibble_encoder.md R143, which the
spec's programs write, are taken too (log entry 14). -/
def readMode (cs : List Char) : Option Nat :=
  if cs = "CMD".toList ∨ cs = "C".toList then some 0
  else if cs = "CHR".toList ∨ cs = "D".toList then some 1
  else readNumber cs

/-- The comma-separated pieces of an operand list, each without outer blanks. -/
def splitCommas : List Char → List (List Char)
  | [] => [[]]
  | ',' :: cs => [] :: splitCommas cs
  | ch :: cs =>
    match splitCommas cs with
    | p :: ps => (ch :: p) :: ps
    | [] => [[ch]]

/-- The operands of a line: none where nothing is written. -/
def operandsOf (cs : List Char) : List (List Char) :=
  if (trim cs).isEmpty then [] else (splitCommas cs).map trim

/-- The string of `WRITE_TEXT`, between double quotes, as character codes; after it only blanks and
a comment may stand (R94). A `;` between the quotes is text and starts no comment: R93 leaves this open,
and it is the model's choice (log entry 14). -/
def readString (cs : List Char) : Option (List Nat) :=
  match cs.dropWhile isBlank with
  | '"' :: rest =>
    match rest.dropWhile (fun ch => decide (ch ≠ '"')) with
    | '"' :: after =>
      if (trim (beforeComment after)).isEmpty then
        some ((rest.takeWhile (fun ch => decide (ch ≠ '"'))).map Char.toNat)
      else none
    | _ => none
  | _ => none

/-- A line from its mnemonic and its number operands (R93, R94). -/
def lineOf (mn : List Char) (ops : List Nat) : Option AsmLine :=
  match ops with
  | [] =>
    if mn = "INIT".toList then some .initDefault
    else if mn = "CLEAR".toList then some .clear
    else if mn = "HOME".toList then some .home
    else if mn = "SCROLL_LEFT".toList then some .scrollLeft
    else if mn = "SCROLL_RIGHT".toList then some .scrollRight
    else if mn = "ENTRY_LEFT".toList then some .entryLeft
    else if mn = "ENTRY_RIGHT".toList then some .entryRight
    else if mn = "AUTO_SCROLL".toList then some .autoScroll
    else if mn = "NO_AUTO_SCROLL".toList then some .noAutoScroll
    else if mn = "BACKLIGHT_ON".toList then some .backlightOn
    else if mn = "BACKLIGHT_OFF".toList then some .backlightOff
    else none
  | [x] =>
    if mn = "INIT".toList then some (.init x)
    else if mn = "WRITE_CHAR".toList then some (.writeChar x)
    else if mn = "BACKLIGHT".toList then some (.backlight x)
    else if mn = "WRITE_GLYPH".toList then some (.writeGlyph x)
    else none
  | [x, y] =>
    if mn = "SET_CURSOR".toList then some (.setCursor x y)
    else if mn = "SEND_BYTE".toList then some (.sendByte x y)
    else none
  | [slot, r0, r1, r2, r3, r4, r5, r6, r7] =>
    if mn = "CREATE_CHAR".toList then some (.createChar slot r0 r1 r2 r3 r4 r5 r6 r7) else none
  | _ => none

/-- The number operands of a mnemonic: SEND_BYTE's second operand is a mode. -/
def readOperands (mn : List Char) (ops : List (List Char)) : Option (List Nat) :=
  if mn = "SEND_BYTE".toList then
    match ops with
    | [x, y] =>
      match readNumber x, readMode y with
      | some a, some m => some [a, m]
      | _, _ => none
    | _ => none
  else ops.mapM readNumber

/-- A mnemonic's letters and the underscore. -/
def isMnemonicChar (ch : Char) : Bool := (decide ('A' ≤ ch) && decide (ch ≤ 'Z')) || decide (ch = '_')

/-- One line of source: `none` is an assembly error, `some none` a line with nothing but blanks and a
comment (R93). -/
def parseLine (cs : List Char) : Option (Option AsmLine) :=
  let text := cs.dropWhile isBlank
  let mn := text.takeWhile isMnemonicChar
  let rest := text.dropWhile isMnemonicChar
  if (trim (beforeComment text)).isEmpty then some none
  else if (beforeComment rest).head?.any (fun ch => !isBlank ch) then none
  else if mn = "WRITE_TEXT".toList then (readString rest).map (fun codes => some (.writeText codes))
  else
    ((readOperands mn (operandsOf (beforeComment rest))).bind (lineOf mn)).map some

/-- The request words of one line of source (R93): none where there is nothing to assemble. -/
def assembleLine (c : Config) (cs : List Char) : Option (List ReqWord) :=
  match parseLine cs with
  | none => none
  | some none => some []
  | some (some line) => assemble c line

end Sys2Proof.Machine
end

