-- ==== Sys2Proof/Safety.lean ====
section
/-! DEFINITION. The terms in which claims about runs are made: the bus trace a job is to give
(40_sequencer.md R125, 20_memory.md R59), the cycles it takes under a prompt transport
(70_reset_and_hazards.md R282), and the invariant of the block. No step uses them. -/

namespace Sys2Proof.Machine

/-- The bus writes of one unit `t` (40_sequencer.md R117). -/
def unitEvents (c : Config) (a : DevAddr) (t : Byte) : List BusEvent :=
  [.write a t, .write a (t ||| enMask c), .write a (t &&& ~~~ enMask c)]

/-- The six bus writes of `Byte(v, m)` (R125). -/
def byteEvents (c : Config) (a : DevAddr) (bl : Bool) (v : Byte) (m : Mode) : List BusEvent :=
  unitEvents c a (encHi c v m bl) ++ unitEvents c a (encLo c v m bl)

/-- The bus events of one step; a Hold adds none (R125). -/
def stepEvents (c : Config) (a : DevAddr) (bl : Bool) : JobStep → List BusEvent
  | .byte v m => byteEvents c a bl v m
  | .hold _ => []
  | .busOpen b => [.opened b true]

/-- The bus events of a list of steps, in order (R125). -/
def jobEvents (c : Config) (a : DevAddr) (bl : Bool) (job : List JobStep) : List BusEvent :=
  job.flatMap (stepEvents c a bl)

/-- How many of a byte's six writes stand before the one `U` and `W` select. -/
def writesBefore : UnitSel → WriteSel → Nat
  | .high, .data => 0
  | .high, .enHigh => 1
  | .high, .enLow => 2
  | .low, .data => 3
  | .low, .enHigh => 4
  | .low, .enLow => 5

/-- The steps after the current one. -/
def laterSteps (s : State) : List JobStep := s.job.drop (s.stepIx.toNat + 1)

/-- The bus events still to come from the current step, if every open succeeds. -/
def currentPending (s : State) : List BusEvent :=
  match s.ph, currentStep s with
  | .openBus, _ => [.opened s.addr true]
  | .write, some (.byte v m) => (byteEvents s.cfg s.addr s.bl v m).drop (writesBefore s.u s.w)
  | .hold, some (.byte v m) => (byteEvents s.cfg s.addr s.bl v m).drop (writesBefore s.u s.w + 1)
  | _, _ => []

/-- The bus events still to come from the job in progress, if every open succeeds; none in IDLE. -/
def pending (s : State) : List BusEvent :=
  if s.ph = .idle then [] else currentPending s ++ jobEvents s.cfg s.addr s.bl (laterSteps s)

/-- The cycles of one unit when every write takes one cycle. -/
def unitCycles (c : Config) : Nat := 3 + c.nHoldHi + c.nHoldLo

/-- The cycles of one step when every write and open takes one cycle (R282). -/
def stepCycles (c : Config) : JobStep → Nat
  | .byte _ _ => 2 * unitCycles c
  | .hold n => n
  | .busOpen _ => 1

/-- The cycles of a list of steps when every write and open takes one cycle (R282). -/
def jobCycles (c : Config) (job : List JobStep) : Nat := (job.map (stepCycles c)).sum

/-- The cycles of a unit that follow the end of the hold after write `W`, or, for the data write,
after that write. -/
def cyclesAfter (c : Config) : WriteSel → Nat
  | .data => 2 + c.nHoldHi + c.nHoldLo
  | .enHigh => 1 + c.nHoldLo
  | .enLow => 0

/-- The cycles of the later unit of a byte: a whole unit after the high one, none after the low. -/
def otherUnitCycles (c : Config) : UnitSel → Nat
  | .high => unitCycles c
  | .low => 0

/-- The hold that follows write `W`. -/
def holdAfter (c : Config) : WriteSel → Nat
  | .data => 0
  | .enHigh => c.nHoldHi
  | .enLow => c.nHoldLo

/-- The cycles the current step still takes when every write and open takes one cycle. -/
def currentCycles (s : State) : Nat :=
  match s.ph, currentStep s with
  | .idle, _ => 0
  | .openBus, _ => 1
  | .write, _ => 1 + holdAfter s.cfg s.w + cyclesAfter s.cfg s.w + otherUnitCycles s.cfg s.u
  | .hold, some (.byte _ _) => s.cnt + cyclesAfter s.cfg s.w + otherUnitCycles s.cfg s.u
  | .hold, _ => s.cnt

/-- The cycles until the block is IDLE when every write and open takes one cycle (R282). -/
def remainingCycles (s : State) : Nat :=
  if s.ph = .idle then 0 else currentCycles s + jobCycles s.cfg (laterSteps s)

/-- The transport answers at once: in this cycle it completes the write, or opens the bus with
success; and the block is not reset. -/
def prompt (inp : Inputs) : Bool := !inp.rst && inp.bwDone && inp.boDone && inp.boOk

/-- A step that may stand in the job of the state's request: a hold the counter can count, a bus
open at `ADDR` only in INIT's job. -/
def stepFits (s : State) : JobStep → Bool
  | .byte _ _ => true
  | .hold n => decide (1 ≤ n) && decide (n < 2 ^ s.cfg.cntW)
  | .busOpen a => decide (a = s.addr) && decide (opOf s.req = 0x0)

/-- The phase, `W` and `CNT` agree with the current step. -/
def phaseFits (s : State) : Bool :=
  match s.ph, currentStep s with
  | .idle, _ => true
  | .openBus, some (.busOpen _) => true
  | .write, some (.byte _ _) => true
  | .hold, some (.hold n) => decide (1 ≤ s.cnt) && decide (s.cnt ≤ n)
  | .hold, some (.byte _ _) => decide (1 ≤ s.cnt) && decide (s.cnt ≤ holdAfter s.cfg s.w)
  | _, _ => false

/-- What holds of a job in progress: at most 12 steps (10_state.md R30), each fitting, and
`INITIALIZED = 0` exactly in INIT's job (42_init.md R163). -/
def jobFits (s : State) : Bool :=
  decide (s.job.length ≤ 12) && s.job.all (stepFits s) &&
  decide (s.initialized = decide (opOf s.req ≠ 0x0))

/-- The diagnostic code is 0 to 4, and not 0 while `diag_valid = 1` (60_exceptions.md R241). -/
def diagFits (s : State) : Bool :=
  decide (s.dc.toNat ≤ 4) && (!s.dv || decide (s.dc ≠ 0))

/-- The invariant of the block: a valid configuration, a counter within its width, a diagnostic port
that shows a code of R241, and a phase and a job that fit. -/
def inv (s : State) : Bool :=
  s.cfg.valid && decide (s.cnt < 2 ^ s.cfg.cntW) && diagFits s && phaseFits s &&
  (decide (s.ph = .idle) || jobFits s)

/-! The next states the claims name, written out field by field. -/

/-- The state after an edge that only uses up its pins and lets `DV` fall. -/
def quietEdge (s : State) : State :=
  { s with
    dv := false
    stim := s.stim.tail
    draws := if s.stim = [] then s.draws + 1 else s.draws }

/-- A job whose first step is a Byte has just been started; nothing else changes. -/
def startsWriting (s : State) (job : List JobStep) : State :=
  { s with job := job, stepIx := 0, ph := .write, u := .high, w := .data }

/-- NOT_INIT has just been raised; nothing else changes (60_exceptions.md R244). -/
def rejectedNotInit (s : State) : State :=
  { s with errNoinit := true, dv := true, dc := 3, ph := .idle }

/-- BAD_SLOT has just been raised; nothing else changes (60_exceptions.md R243). -/
def rejectedBadSlot (s : State) : State :=
  { s with errSlot := true, dv := true, dc := 2, ph := .idle }

/-- BAD_OP has just been raised; nothing else changes (60_exceptions.md R245). -/
def rejectedBadOp (s : State) : State :=
  { s with errOp := true, dv := true, dc := 4, ph := .idle }

/-! Runs and the schedules of the environment. -/

/-- `k` edges of the machine. -/
def runFor (k : Nat) (s : State) : Host.Outcome State Fault Refusal := Host.Core.run Sys2Proof.core k s

/-- No edge of the schedule resets the block. -/
def noReset (ins : List Inputs) : Bool := ins.all (fun inp => !inp.rst)

/-- A schedule in which the transport completes no write and the block is not reset. -/
def stalledWrite (ins : List Inputs) : Bool := ins.all (fun inp => !inp.rst && !inp.bwDone)

/-- A schedule in which the transport does not answer the open and the block is not reset. -/
def stalledOpen (ins : List Inputs) : Bool := ins.all (fun inp => !inp.rst && !inp.boDone)

/-- The schedule of one bus write: any number of waiting cycles, then one in which the transport
completes it (20_memory.md R51); no reset. -/
def writeSlot (ins : List Inputs) : Bool :=
  stalledWrite ins.dropLast && ins.getLast?.any (fun inp => !inp.rst && inp.bwDone)

/-- No edge of the schedule resets the block or presents an INIT request. -/
def noInit (ins : List Inputs) : Bool :=
  ins.all (fun inp => !inp.rst && !(inp.reqValid && decide (opOf inp.reqWord = 0x0)))

/-- How many of the events are bus writes. -/
def countWrites (events : List BusEvent) : Nat :=
  events.countP (fun e => match e with | .write _ _ => true | .opened _ _ => false)

end Sys2Proof.Machine
end

