-- ==== Sys2Proof/Certificates/Slice0/Obligations.lean ====
section
/-! DEFINITION. The statements for the provers. Each cites the rules of spec/ it rests on. Next states
are written out as records, so each says its frame too: what a record does not name is unchanged. -/

open Sys2Proof Sys2Proof.Machine

/-! ## Encoding -/

/-- Decoding the word of an instruction gives it back, every operand at every value (R80, R81, R92). -/
def Obligations.DecodeOfEncode : Prop :=
  ∀ i : Instr, decode (encode i) = i

/-- The operation and the operands of a word, by arithmetic on its number (R81 to R85, R92). -/
def Obligations.DecodeReadsTableFields : Prop :=
  ∀ w : ReqWord,
    (w.toNat % 16 = 0 → decode w = .init (BitVec.ofNat 7 (w.toNat / 2 ^ 8))) ∧
    (w.toNat % 16 = 1 → decode w = .clear) ∧
    (w.toNat % 16 = 2 → decode w = .home) ∧
    (w.toNat % 16 = 3 →
      decode w = .setCursor (BitVec.ofNat 2 (w.toNat / 2 ^ 8)) (BitVec.ofNat 7 (w.toNat / 2 ^ 16))) ∧
    (w.toNat % 16 = 4 → decode w = .writeChar (BitVec.ofNat 8 (w.toNat / 2 ^ 8))) ∧
    (w.toNat % 16 = 5 → decode w = .backlight (decide (w.toNat / 2 ^ 4 % 2 = 1))) ∧
    (w.toNat % 16 = 6 → decode w = .scrollLeft) ∧
    (w.toNat % 16 = 7 → decode w = .scrollRight) ∧
    (w.toNat % 16 = 8 → decode w = .entryLeft) ∧
    (w.toNat % 16 = 9 → decode w = .entryRight) ∧
    (w.toNat % 16 = 10 → decode w = .autoScroll) ∧
    (w.toNat % 16 = 11 → decode w = .noAutoScroll) ∧
    (w.toNat % 16 = 12 →
      decode w = .createChar (BitVec.ofNat 8 (w.toNat / 2 ^ 8)) (BitVec.ofNat 8 (w.toNat / 2 ^ 24))
        (BitVec.ofNat 8 (w.toNat / 2 ^ 32)) (BitVec.ofNat 8 (w.toNat / 2 ^ 40))
        (BitVec.ofNat 8 (w.toNat / 2 ^ 48)) (BitVec.ofNat 8 (w.toNat / 2 ^ 56))
        (BitVec.ofNat 8 (w.toNat / 2 ^ 64)) (BitVec.ofNat 8 (w.toNat / 2 ^ 72))
        (BitVec.ofNat 8 (w.toNat / 2 ^ 80))) ∧
    (w.toNat % 16 = 13 →
      decode w = .sendByte (BitVec.ofNat 8 (w.toNat / 2 ^ 8))
        (if w.toNat / 2 ^ 4 % 2 = 1 then .character else .command)) ∧
    (w.toNat % 16 = 14 → decode w = .reservedE) ∧
    (w.toNat % 16 = 15 → decode w = .reservedF)

/-- Words written out from the fields of R80 (all but one of them stand in 95_test_vectors.md, whose
word for SEND_BYTE 0x41 has another operation's OP: log entry 15) decode to the requests they stand
for. -/
def Obligations.SpecWordsDecode : Prop :=
  decode 0x0000000000000000002700 = .init 0x27 ∧
  decode 0x0000000000000000030103 = .setCursor 1 3 ∧
  decode 0x0000000000000000FF41F4 = .writeChar 0x41 ∧
  decode 0x0000000000000000000001 = .clear ∧
  decode 0x0000000000000000000002 = .home ∧
  decode 0x0000000000000000000005 = .backlight false ∧
  decode 0x0000000000000000000015 = .backlight true ∧
  decode 0x0000000000000000000006 = .scrollLeft ∧
  decode 0x0000000000000000000007 = .scrollRight ∧
  decode 0x0000000000000000000008 = .entryLeft ∧
  decode 0x0000000000000000000009 = .entryRight ∧
  decode 0x000000000000000000000A = .autoScroll ∧
  decode 0x000000000000000000000B = .noAutoScroll ∧
  decode 0x000000000000000000411D = .sendByte 0x41 .character ∧
  decode 0x0000000000000000000F0D = .sendByte 0x0F .command ∧
  decode 0x0000040E1F1F0A0000020C = .createChar 0x02 0x00 0x0A 0x1F 0x1F 0x0E 0x04 0x00 0x00 ∧
  decode 0x000000000000000000000E = .reservedE ∧
  decode 0x000000000000000000000F = .reservedF

/-- Encoding what a word decodes to clears exactly the bits its operation does not read (R86, R93
"Unused fields assemble as 0"). -/
def Obligations.EncodeOfDecodeClearsIgnoredBits : Prop :=
  ∀ w : ReqWord, encode (decode w) = w &&& readMask (opOf w)

/-- A request with non-zero ignored bits behaves exactly as the same request with those bits zero: the
edge that accepts it gives the same next state but for the latched word itself, of which every output
is independent and of which the block later reads `OP` only (R86; that the latch keeps the ignored
bits is log entry 7). -/
def Obligations.IgnoredBitsHaveNoEffect : Prop :=
  ∀ (s t : State) (inp : Inputs) (rest : List Inputs),
    s.ph = .idle → inp.rst = false → inp.reqValid = true →
    step { s with stim := inp :: rest } = .next t →
    step { s with stim := { inp with reqWord := inp.reqWord &&& readMask (opOf inp.reqWord) } :: rest }
      = .next { t with req := inp.reqWord &&& readMask (opOf inp.reqWord) } ∧
    outputs { t with req := inp.reqWord &&& readMask (opOf inp.reqWord) } = outputs t ∧
    opOf (inp.reqWord &&& readMask (opOf inp.reqWord)) = opOf inp.reqWord

/-! ## The assembler -/

/-- The pseudo-instructions (R94), for a configuration whose default address is the reference one. -/
def Obligations.PseudoInstructionsExpand : Prop :=
  ∀ c : Config, c.defaultAddr = 0x27 →
    expand c .initDefault = expand c (.init 0x27) ∧
    expand c .initDefault = some [.init 0x27] ∧
    (∀ codes : List Nat, (∀ n ∈ codes, n < 256) →
      expand c (.writeText codes) = some (codes.map (fun n => .writeChar (BitVec.ofNat 8 n)))) ∧
    expand c (.writeText []) = some [] ∧
    (∀ i : Nat, i < 8 → expand c (.writeGlyph i) = some [.writeChar (BitVec.ofNat 8 i)]) ∧
    (∀ i : Nat, 8 ≤ i → expand c (.writeGlyph i) = none) ∧
    (∀ b : Nat, 8 ≤ b → b ≤ 15 → expand c (.writeChar b) = some [.writeChar (BitVec.ofNat 8 b)]) ∧
    expand c .backlightOn = expand c (.backlight 1) ∧
    expand c .backlightOff = expand c (.backlight 0)

/-- The words of the operand forms of R93, as numbers: each operand in its field, the rest 0; an
operand out of its range is an assembly error. -/
def Obligations.AssembledWords : Prop :=
  ∀ c : Config,
    (∀ a : Nat, a ≤ 0x7F → assemble c (.init a) = some [BitVec.ofNat 88 (0x0 + a * 2 ^ 8)]) ∧
    (∀ a : Nat, 0x7F < a → assemble c (.init a) = none) ∧
    (∀ l k : Nat, l ≤ 3 → k ≤ 127 →
      assemble c (.setCursor l k) = some [BitVec.ofNat 88 (0x3 + l * 2 ^ 8 + k * 2 ^ 16)]) ∧
    (∀ l k : Nat, 3 < l ∨ 127 < k → assemble c (.setCursor l k) = none) ∧
    (∀ b : Nat, b ≤ 255 → assemble c (.writeChar b) = some [BitVec.ofNat 88 (0x4 + b * 2 ^ 8)]) ∧
    (∀ b : Nat, 255 < b → assemble c (.writeChar b) = none) ∧
    (∀ m : Nat, m ≤ 1 → assemble c (.backlight m) = some [BitVec.ofNat 88 (0x5 + m * 2 ^ 4)]) ∧
    (∀ m : Nat, 1 < m → assemble c (.backlight m) = none) ∧
    (∀ b m : Nat, b ≤ 255 → m ≤ 1 →
      assemble c (.sendByte b m) = some [BitVec.ofNat 88 (0xD + m * 2 ^ 4 + b * 2 ^ 8)]) ∧
    (∀ b m : Nat, 255 < b ∨ 1 < m → assemble c (.sendByte b m) = none) ∧
    (∀ slot r0 r1 r2 r3 r4 r5 r6 r7 : Nat,
      (∀ n ∈ [slot, r0, r1, r2, r3, r4, r5, r6, r7], n ≤ 255) →
      assemble c (.createChar slot r0 r1 r2 r3 r4 r5 r6 r7) =
        some [BitVec.ofNat 88 (0xC + slot * 2 ^ 8 + r0 * 2 ^ 24 + r1 * 2 ^ 32 + r2 * 2 ^ 40 +
          r3 * 2 ^ 48 + r4 * 2 ^ 56 + r5 * 2 ^ 64 + r6 * 2 ^ 72 + r7 * 2 ^ 80)]) ∧
    (∀ slot r0 r1 r2 r3 r4 r5 r6 r7 : Nat,
      (∃ n ∈ [slot, r0, r1, r2, r3, r4, r5, r6, r7], 255 < n) →
      assemble c (.createChar slot r0 r1 r2 r3 r4 r5 r6 r7) = none) ∧
    assemble c .clear = some [0x1] ∧ assemble c .home = some [0x2] ∧
    assemble c .scrollLeft = some [0x6] ∧ assemble c .scrollRight = some [0x7] ∧
    assemble c .entryLeft = some [0x8] ∧ assemble c .entryRight = some [0x9] ∧
    assemble c .autoScroll = some [0xA] ∧ assemble c .noAutoScroll = some [0xB]

/-! ## ROM, patterns and units -/

/-- The entries of the command-set ROM (R64 to R74). -/
def Obligations.RomEntries : Prop :=
  romClearDisplay = 0x01 ∧ romReturnHome = 0x02 ∧ romEntryModeSet = 0x04 ∧ romEntryLeft = 0x02 ∧
  romEntryShift = 0x01 ∧ romDisplayControl = 0x08 ∧ romDisplayOn = 0x04 ∧ romCursorOn = 0x02 ∧
  romBlinkOn = 0x01 ∧ romCursorShift = 0x10 ∧ romDisplayMove = 0x08 ∧ romMoveRight = 0x04 ∧
  romFunctionSet = 0x20 ∧ romMode8Bit = 0x10 ∧ romTwoLine = 0x08 ∧ romFont5x10 = 0x04 ∧
  romSetCgramAddr = 0x40 ∧ romSetDdramAddr = 0x80 ∧ romInitReset = 0x03 ∧ romInit4Bit = 0x02 ∧
  romNop = 0x00

/-- The composed command patterns (R76), by their ROM entries and as numbers: the DDRAM sum wraps at 7
bits and keeps the set-DDRAM-address bit, the slot's low three bits times 8 stand below the
set-CGRAM-address bit. -/
def Obligations.ComposedPatterns : Prop :=
  (∀ id sh : Bool,
    ems id sh = romEntryModeSet ||| (if id then romEntryLeft else 0) |||
      (if sh then romEntryShift else 0) ∧
    (ems id sh).toNat = 4 + 2 * id.toNat + sh.toNat) ∧
  fsInit = romFunctionSet ||| romTwoLine ∧ fsInit = 0x28 ∧
  dcInit = romDisplayControl ||| romDisplayOn ∧ dcInit = 0x0C ∧
  scrollL = romCursorShift ||| romDisplayMove ∧ scrollL = 0x18 ∧
  scrollR = romCursorShift ||| romDisplayMove ||| romMoveRight ∧ scrollR = 0x1C ∧
  romSetCgramAddr = 0x40 ∧ romSetDdramAddr = 0x80 ∧
  (∀ slot : Byte, (cgramAddr slot).toNat = 0x40 + 8 * (slot.toNat % 8)) ∧
  (∀ (c : Config) (line : BitVec 2) (col : BitVec 7),
    (ddramAddr c line col).toNat = 0x80 + ((lineOffset c line).toNat + col.toNat) % 2 ^ 7)

/-- The line-offset table of a configuration and of the reference configuration (R75). -/
def Obligations.LineOffsets : Prop :=
  (∀ c : Config, lineOffset c 0 = c.lineOffset0 ∧ lineOffset c 1 = c.lineOffset1 ∧
    lineOffset c 2 = c.lineOffset2 ∧ lineOffset c 3 = c.lineOffset3) ∧
  lineOffset referenceConfig 0 = 0x00 ∧ lineOffset referenceConfig 1 = 0x40 ∧
  lineOffset referenceConfig 2 = 0x14 ∧ lineOffset referenceConfig 3 = 0x54 ∧
  referenceConfig.valid = true

/-- The encoder's two functions (R140, R141), with the masks of R5. -/
def Obligations.EncoderFunctions : Prop :=
  ∀ (c : Config) (v : Byte) (m : Mode) (bl : Bool),
    encHi c v m bl = (v &&& 0xF0) ||| (if m = .character then 1 <<< c.rsBit else 0) |||
      (if bl = true then 1 <<< c.blBit else 0) ∧
    encLo c v m bl = ((v <<< 4) &&& 0xF0) ||| (if m = .character then 1 <<< c.rsBit else 0) |||
      (if bl = true then 1 <<< c.blBit else 0)

/-- The layout of the two units of a byte for every valid configuration (R88, R145): the nibble in
bits 7 to 4, the mode at `RS_BIT`, the backlight at `BL_BIT`, 0 at `EN_BIT` and `RW_BIT`; so the byte
is recovered from its two nibbles and both units carry the same control bits. -/
def Obligations.UnitLayout : Prop :=
  ∀ (c : Config) (v : Byte) (m : Mode) (bl : Bool), c.valid = true →
    (encHi c v m bl).toNat / 16 = v.toNat / 16 ∧
    (encLo c v m bl).toNat / 16 = v.toNat % 16 ∧
    (encHi c v m bl).toNat % 16 = (encLo c v m bl).toNat % 16 ∧
    (∀ t ∈ [encHi c v m bl, encLo c v m bl],
      t.getLsbD c.rsBit = decide (m = .character) ∧ t.getLsbD c.blBit = bl ∧
      t.getLsbD c.enBit = false ∧ t.getLsbD c.rwBit = false)

/-- The three bytes of a unit (R89): `t`, `t | EN_MASK`, `t & ~EN_MASK`, of which the first and the
third are equal, the second differs from them in EN alone, and none has RW set. -/
def Obligations.UnitWrites : Prop :=
  ∀ (c : Config) (v : Byte) (m : Mode) (bl : Bool) (u : UnitSel), c.valid = true →
    writeByte c (unitByte c v m bl u) .data = unitByte c v m bl u ∧
    writeByte c (unitByte c v m bl u) .enHigh = unitByte c v m bl u ||| enMask c ∧
    writeByte c (unitByte c v m bl u) .enLow = unitByte c v m bl u &&& ~~~ enMask c ∧
    unitByte c v m bl u &&& enMask c = 0 ∧
    writeByte c (unitByte c v m bl u) .enLow = writeByte c (unitByte c v m bl u) .data ∧
    writeByte c (unitByte c v m bl u) .enHigh ^^^ writeByte c (unitByte c v m bl u) .enLow = enMask c ∧
    (∀ w : WriteSel, writeByte c (unitByte c v m bl u) w &&& rwMask c = 0)

/-! ## Acceptance -/

/-- A step runs the decoded request: in IDLE, with no reset and a request presented, the step is
`exec` of the decoded word at the state of the edge (its pins used up, `DV` low) with the word latched
into `REQ` (R111, R112). That the whole word is latched at every acceptance, its ignored bits and the
words of rejected requests too, is the model's choice (log entry 7). -/
def Obligations.StepRunsDecodedRequest : Prop :=
  ∀ s : State, s.ph = .idle → (pins s).rst = false → (pins s).reqValid = true →
    step s = exec (decode (pins s).reqWord) { quietEdge s with req := (pins s).reqWord }

/-- The pins of `withFetchWord` present the word: the next step runs the instruction `decodeTableWord`
reads from it (R111; what `withFetchWord` sets is log entry 3). -/
def Obligations.PresentedWordRunsNext : Prop :=
  ∀ (s : State) (nbits w : Nat), nbits ≤ 88 →
    ∃ i : Instr, decodeTableWord nbits w = some i ∧
      step (s.withFetchWord nbits w) =
        exec i { s with ph := .idle, dv := false, req := BitVec.ofNat 88 (w % 2 ^ nbits) }

/-- A request is accepted in IDLE only: during a job `req_ready` is 0, and neither `req_valid` nor
`req_word` changes what an edge does (R111, R62, R278). -/
def Obligations.BusyBlockIgnoresRequests : Prop :=
  ∀ (s : State) (inp : Inputs) (valid : Bool) (word : ReqWord) (rest : List Inputs), s.ph ≠ .idle →
    reqReady s = false ∧
    step { s with stim := { inp with reqValid := valid, reqWord := word } :: rest } =
      step { s with stim := inp :: rest }

/-! ## Rejections -/

/-- NOT_INIT (R244): any request with `OP` not 0x0, 0xE or 0xF accepted while `INITIALIZED = 0` sets
`ERR_NOINIT` and pulses code 3; no acceptance update, no job, no bus event. No request is accepted
while a job is in progress. What `REQ` holds after a rejected request is not named (log entry 7). -/
def Obligations.NotInitRejects : Prop :=
  (∀ s : State, s.ph = .idle → (pins s).rst = false → (pins s).reqValid = true →
    s.initialized = false → (pins s).reqWord.toNat % 16 ∉ [0x0, 0xE, 0xF] →
    ∃ r : ReqWord, step s = .next { quietEdge s with
      req := r, errNoinit := true, dv := true, dc := 3, ph := .idle }) ∧
  (∀ s : State, s.ph ≠ .idle → reqReady s = false)

/-- BAD_SLOT (R243): a CREATE_CHAR with `A ≥ 8`, once NOT_INIT does not apply, sets `ERR_SLOT` and
pulses code 2; nothing is sent. What `REQ` holds after it is not named (log entry 7). -/
def Obligations.BadSlotRejects : Prop :=
  ∀ s : State, s.ph = .idle → (pins s).rst = false → (pins s).reqValid = true →
    s.initialized = true → (pins s).reqWord.toNat % 16 = 0xC →
    8 ≤ (pins s).reqWord.toNat / 2 ^ 8 % 2 ^ 8 →
    ∃ r : ReqWord, step s = .next { quietEdge s with
      req := r, errSlot := true, dv := true, dc := 2, ph := .idle }

/-- BAD_OP (R245): the two reserved opcodes, whatever `INITIALIZED` is, set `ERR_OP` and pulse code 4;
nothing else changes. Said of the two instructions and of the edge that accepts a word with their
`OP`; what `REQ` holds after that edge is not named (log entry 7). -/
def Obligations.ReservedOpcodesRaiseBadOp : Prop :=
  (∀ s : State, exec .reservedE s = .next { s with errOp := true, dv := true, dc := 4, ph := .idle }) ∧
  (∀ s : State, exec .reservedF s = .next { s with errOp := true, dv := true, dc := 4, ph := .idle }) ∧
  (∀ s : State, s.ph = .idle → (pins s).rst = false → (pins s).reqValid = true →
    14 ≤ (pins s).reqWord.toNat % 16 →
    ∃ r : ReqWord, step s = .next { quietEdge s with
      req := r, errOp := true, dv := true, dc := 4, ph := .idle })

/-- Exactly one cause is raised for a request: the first of BAD_OP, NOT_INIT, BAD_SLOT that applies,
and none where none applies; INIT_BUS_FAIL arises in the OPEN phase only (R246). -/
def Obligations.OneCauseInPriorityOrder : Prop :=
  (∀ s t : State, s.ph = .idle → (pins s).rst = false → (pins s).reqValid = true → step s = .next t →
    if 14 ≤ (pins s).reqWord.toNat % 16 then
      t.dv = true ∧ t.dc = 4 ∧ t.errOp = true ∧ t.errNoinit = s.errNoinit ∧ t.errSlot = s.errSlot ∧
        t.errInit = s.errInit
    else if (pins s).reqWord.toNat % 16 ≠ 0 ∧ s.initialized = false then
      t.dv = true ∧ t.dc = 3 ∧ t.errNoinit = true ∧ t.errOp = s.errOp ∧ t.errSlot = s.errSlot ∧
        t.errInit = s.errInit
    else if (pins s).reqWord.toNat % 16 = 12 ∧ 8 ≤ (pins s).reqWord.toNat / 2 ^ 8 % 2 ^ 8 then
      t.dv = true ∧ t.dc = 2 ∧ t.errSlot = true ∧ t.errOp = s.errOp ∧ t.errNoinit = s.errNoinit ∧
        t.errInit = s.errInit
    else
      t.dv = false ∧ t.errOp = s.errOp ∧ t.errNoinit = s.errNoinit ∧ t.errSlot = s.errSlot ∧
        t.errInit = s.errInit) ∧
  (∀ s t : State, (pins s).rst = false → step s = .next t → t.dv = true → t.dc = 1 → s.ph = .openBus)

/-- The diagnostic port shows `DV` and `DC`. Every edge without a reset either raises nothing, and then
`DV` is 0 and neither `DC` nor a sticky bit changes, or raises exactly one cause: its sticky bit is set
and no other changes, `DV` is 1, `DC` its code, `PH = IDLE` (R27, R34, R240, R241). -/
def Obligations.EdgeRaisesAtMostOneCause : Prop :=
  (∀ s : State, diagValid s = s.dv ∧ diagCode s = s.dc) ∧
  ∀ s t : State, (pins s).rst = false → step s = .next t →
    (t.dv = false ∧ t.dc = s.dc ∧ t.errInit = s.errInit ∧ t.errSlot = s.errSlot ∧
      t.errNoinit = s.errNoinit ∧ t.errOp = s.errOp) ∨
    (t.dv = true ∧ t.ph = .idle ∧
      ((t.dc = 1 ∧ t.errInit = true ∧ t.errSlot = s.errSlot ∧ t.errNoinit = s.errNoinit ∧
          t.errOp = s.errOp) ∨
       (t.dc = 2 ∧ t.errInit = s.errInit ∧ t.errSlot = true ∧ t.errNoinit = s.errNoinit ∧
          t.errOp = s.errOp) ∨
       (t.dc = 3 ∧ t.errInit = s.errInit ∧ t.errSlot = s.errSlot ∧ t.errNoinit = true ∧
          t.errOp = s.errOp) ∨
       (t.dc = 4 ∧ t.errInit = s.errInit ∧ t.errSlot = s.errSlot ∧ t.errNoinit = s.errNoinit ∧
          t.errOp = true)))

/-! ## The requests -/

/-- INIT (R160, R161, R164, R165): accepted in IDLE whether or not `INITIALIZED = 1`; it loads `ADDR`,
clears `INITIALIZED`, keeps `BL`, `ID` and `SH`, and starts the twelve steps of R160 in their order,
the bus open and the power-on hold among them, the entry-mode byte with the current flags. -/
def Obligations.InitStartsItsJob : Prop :=
  (∀ (a : DevAddr) (s : State),
    exec (.init a) s = .next { s with
      addr := a, initialized := false, ph := .openBus, stepIx := 0,
      job := [.busOpen a, .hold s.cfg.nPoweron, .byte 0x03 .command, .hold s.cfg.nInitWait,
        .byte 0x03 .command, .byte 0x03 .command, .byte 0x02 .command, .byte 0x28 .command,
        .byte 0x0C .command, .byte 0x01 .command, .hold s.cfg.nClear,
        .byte (0x04 ||| (if s.id then 0x02 else 0) ||| (if s.sh then 0x01 else 0)) .command] }) ∧
  (∀ w : ReqWord, w.toNat % 16 = 0 → decode w = .init (BitVec.ofNat 7 (w.toNat / 2 ^ 8))) ∧
  (∀ s : State, s.ph = .idle → (pins s).rst = false → (pins s).reqValid = true →
    (pins s).reqWord.toNat % 16 = 0 →
    ∃ r : ReqWord, step s = exec (.init (BitVec.ofNat 7 ((pins s).reqWord.toNat / 2 ^ 8)))
      { quietEdge s with req := r })

/-- CLEAR (R180): the clear-display byte, then the hold of `N_CLEAR`; NOT_INIT before INIT. -/
def Obligations.ClearStartsItsJob : Prop :=
  (∀ s : State, s.initialized = true →
    exec .clear s = .next (startsWriting s [.byte 0x01 .command, .hold s.cfg.nClear])) ∧
  (∀ s : State, s.initialized = false → exec .clear s = .next (rejectedNotInit s)) ∧
  (∀ w : ReqWord, w.toNat % 16 = 1 → decode w = .clear) ∧
  (∀ a : DevAddr, jobEvents referenceConfig a true [.byte 0x01 .command, .hold 1500] =
    [.write a 0x08, .write a 0x0C, .write a 0x08, .write a 0x18, .write a 0x1C, .write a 0x18])

/-- HOME (R191): the return-home byte, which equals INIT's 4-bit byte, then the hold of `N_CLEAR`;
NOT_INIT before INIT. -/
def Obligations.HomeStartsItsJob : Prop :=
  (∀ s : State, s.initialized = true →
    exec .home s = .next (startsWriting s [.byte 0x02 .command, .hold s.cfg.nClear])) ∧
  (∀ s : State, s.initialized = false → exec .home s = .next (rejectedNotInit s)) ∧
  (∀ w : ReqWord, w.toNat % 16 = 2 → decode w = .home) ∧ romReturnHome = romInit4Bit ∧
  (∀ a : DevAddr, jobEvents referenceConfig a true [.byte 0x02 .command, .hold 1500] =
    [.write a 0x08, .write a 0x0C, .write a 0x08, .write a 0x28, .write a 0x2C, .write a 0x28])

/-- SET_CURSOR (R181): one command byte, 0x80 plus the line's offset plus the column wrapped at 7
bits; neither operand is checked; NOT_INIT before INIT; a line of 4 or more or a column of 128 or more
has no encoding. -/
def Obligations.SetCursorStartsItsJob : Prop :=
  (∀ (line : BitVec 2) (col : BitVec 7) (s : State), s.initialized = true →
    exec (.setCursor line col) s = .next (startsWriting s
      [.byte (BitVec.ofNat 8 (0x80 + ((lineOffset s.cfg line).toNat + col.toNat) % 2 ^ 7)) .command])) ∧
  (∀ (line : BitVec 2) (col : BitVec 7) (s : State), s.initialized = false →
    exec (.setCursor line col) s = .next (rejectedNotInit s)) ∧
  (∀ w : ReqWord, w.toNat % 16 = 3 →
    decode w = .setCursor (BitVec.ofNat 2 (w.toNat / 2 ^ 8)) (BitVec.ofNat 7 (w.toNat / 2 ^ 16))) ∧
  (∀ (c : Config) (l k : Nat), 4 ≤ l ∨ 128 ≤ k → assemble c (.setCursor l k) = none) ∧
  ddramAddr referenceConfig 0 0 = 0x80 ∧ ddramAddr referenceConfig 1 0 = 0xC0 ∧
  ddramAddr referenceConfig 2 0 = 0x94 ∧ ddramAddr referenceConfig 3 0 = 0xD4 ∧
  ddramAddr referenceConfig 3 0x7F = 0xD3 ∧ ddramAddr referenceConfig 0 0x7F = 0xFF ∧
  (∀ a : DevAddr, jobEvents referenceConfig a true [.byte 0x80 .command] =
    [.write a 0x88, .write a 0x8C, .write a 0x88, .write a 0x08, .write a 0x0C, .write a 0x08]) ∧
  (∀ a : DevAddr, jobEvents referenceConfig a true [.byte 0xC0 .command] =
    [.write a 0xC8, .write a 0xCC, .write a 0xC8, .write a 0x08, .write a 0x0C, .write a 0x08])

/-- WRITE_CHAR (R182): the byte, unchanged, in character mode; NOT_INIT before INIT. -/
def Obligations.WriteCharStartsItsJob : Prop :=
  (∀ (b : Byte) (s : State), s.initialized = true →
    exec (.writeChar b) s = .next (startsWriting s [.byte b .character])) ∧
  (∀ (b : Byte) (s : State), s.initialized = false →
    exec (.writeChar b) s = .next (rejectedNotInit s)) ∧
  (∀ w : ReqWord, w.toNat % 16 = 4 → decode w = .writeChar (BitVec.ofNat 8 (w.toNat / 2 ^ 8))) ∧
  (∀ a : DevAddr, jobEvents referenceConfig a true [.byte 0x41 .character] =
    [.write a 0x49, .write a 0x4D, .write a 0x49, .write a 0x19, .write a 0x1D, .write a 0x19]) ∧
  (∀ a : DevAddr, jobEvents referenceConfig a true [.byte 0x00 .character] =
    [.write a 0x09, .write a 0x0D, .write a 0x09, .write a 0x09, .write a 0x0D, .write a 0x09])

/-- BACKLIGHT (R183): the flag, then the command byte 0x00 with the new flag, whatever the old one
was; a rejected BACKLIGHT does not change the flag. -/
def Obligations.BacklightStartsItsJob : Prop :=
  (∀ (on : Bool) (s : State), s.initialized = true →
    exec (.backlight on) s = .next { startsWriting s [.byte 0x00 .command] with bl := on }) ∧
  (∀ (on : Bool) (s : State), s.initialized = false →
    exec (.backlight on) s = .next (rejectedNotInit s)) ∧
  (∀ w : ReqWord, w.toNat % 16 = 5 → decode w = .backlight (decide (w.toNat / 2 ^ 4 % 2 = 1))) ∧
  (∀ a : DevAddr, jobEvents referenceConfig a false [.byte 0x00 .command] =
    [.write a 0x00, .write a 0x04, .write a 0x00, .write a 0x00, .write a 0x04, .write a 0x00]) ∧
  (∀ a : DevAddr, jobEvents referenceConfig a true [.byte 0x00 .command] =
    [.write a 0x08, .write a 0x0C, .write a 0x08, .write a 0x08, .write a 0x0C, .write a 0x08])

/-- SCROLL_LEFT (R184): the command byte 0x18; no flag changes; NOT_INIT before INIT. -/
def Obligations.ScrollLeftStartsItsJob : Prop :=
  (∀ s : State, s.initialized = true →
    exec .scrollLeft s = .next (startsWriting s [.byte 0x18 .command])) ∧
  (∀ s : State, s.initialized = false → exec .scrollLeft s = .next (rejectedNotInit s)) ∧
  (∀ w : ReqWord, w.toNat % 16 = 6 → decode w = .scrollLeft) ∧
  (∀ a : DevAddr, jobEvents referenceConfig a true [.byte 0x18 .command] =
    [.write a 0x18, .write a 0x1C, .write a 0x18, .write a 0x88, .write a 0x8C, .write a 0x88])

/-- SCROLL_RIGHT (R185): the command byte 0x1C, which differs from SCROLL_LEFT's in the bit 0x04
alone; no flag changes; NOT_INIT before INIT. -/
def Obligations.ScrollRightStartsItsJob : Prop :=
  (∀ s : State, s.initialized = true →
    exec .scrollRight s = .next (startsWriting s [.byte 0x1C .command])) ∧
  (∀ s : State, s.initialized = false → exec .scrollRight s = .next (rejectedNotInit s)) ∧
  (∀ w : ReqWord, w.toNat % 16 = 7 → decode w = .scrollRight) ∧
  scrollR ^^^ scrollL = romMoveRight ∧ romMoveRight = 0x04 ∧
  (∀ a : DevAddr, jobEvents referenceConfig a true [.byte 0x1C .command] =
    [.write a 0x18, .write a 0x1C, .write a 0x18, .write a 0xC8, .write a 0xCC, .write a 0xC8])

/-- ENTRY_LEFT and ENTRY_RIGHT (R186, R187): `ID` becomes 1 or 0, `SH` is kept, and the entry-mode
byte is sent with the new flags; NOT_INIT before INIT. -/
def Obligations.EntryDirectionRequests : Prop :=
  (∀ s : State, s.initialized = true →
    exec .entryLeft s = .next { startsWriting s
      [.byte (if s.sh then 0x07 else 0x06) .command] with id := true }) ∧
  (∀ s : State, s.initialized = false → exec .entryLeft s = .next (rejectedNotInit s)) ∧
  (∀ w : ReqWord, w.toNat % 16 = 8 → decode w = .entryLeft) ∧
  (∀ s : State, s.initialized = true →
    exec .entryRight s = .next { startsWriting s
      [.byte (if s.sh then 0x05 else 0x04) .command] with id := false }) ∧
  (∀ s : State, s.initialized = false → exec .entryRight s = .next (rejectedNotInit s)) ∧
  (∀ w : ReqWord, w.toNat % 16 = 9 → decode w = .entryRight) ∧
  (∀ a : DevAddr, jobEvents referenceConfig a true [.byte 0x06 .command] =
    [.write a 0x08, .write a 0x0C, .write a 0x08, .write a 0x68, .write a 0x6C, .write a 0x68]) ∧
  (∀ a : DevAddr, jobEvents referenceConfig a true [.byte 0x04 .command] =
    [.write a 0x08, .write a 0x0C, .write a 0x08, .write a 0x48, .write a 0x4C, .write a 0x48])

/-- AUTO_SCROLL and NO_AUTO_SCROLL (R188, R189): `SH` becomes 1 or 0, `ID` is kept, and the entry-mode
byte is sent with the new flags; NOT_INIT before INIT. -/
def Obligations.AutoScrollRequests : Prop :=
  (∀ s : State, s.initialized = true →
    exec .autoScroll s = .next { startsWriting s
      [.byte (if s.id then 0x07 else 0x05) .command] with sh := true }) ∧
  (∀ s : State, s.initialized = false → exec .autoScroll s = .next (rejectedNotInit s)) ∧
  (∀ w : ReqWord, w.toNat % 16 = 10 → decode w = .autoScroll) ∧
  (∀ s : State, s.initialized = true →
    exec .noAutoScroll s = .next { startsWriting s
      [.byte (if s.id then 0x06 else 0x04) .command] with sh := false }) ∧
  (∀ s : State, s.initialized = false → exec .noAutoScroll s = .next (rejectedNotInit s)) ∧
  (∀ w : ReqWord, w.toNat % 16 = 11 → decode w = .noAutoScroll) ∧
  (∀ a : DevAddr, jobEvents referenceConfig a true [.byte 0x07 .command] =
    [.write a 0x08, .write a 0x0C, .write a 0x08, .write a 0x78, .write a 0x7C, .write a 0x78]) ∧
  (∀ a : DevAddr, jobEvents referenceConfig a true [.byte 0x06 .command] =
    [.write a 0x08, .write a 0x0C, .write a 0x08, .write a 0x68, .write a 0x6C, .write a 0x68])

/-- CREATE_CHAR (R190): the set-CGRAM-address byte of a slot below 8, then the eight rows unchanged in
character mode, row 0 first; a slot of 8 or more is BAD_SLOT, checked after NOT_INIT. -/
def Obligations.CreateCharStartsItsJob : Prop :=
  (∀ (slot r0 r1 r2 r3 r4 r5 r6 r7 : Byte) (s : State), s.initialized = true → slot.toNat < 8 →
    exec (.createChar slot r0 r1 r2 r3 r4 r5 r6 r7) s = .next (startsWriting s
      [.byte (BitVec.ofNat 8 (0x40 + 8 * slot.toNat)) .command, .byte r0 .character,
       .byte r1 .character, .byte r2 .character, .byte r3 .character, .byte r4 .character,
       .byte r5 .character, .byte r6 .character, .byte r7 .character])) ∧
  (∀ (slot r0 r1 r2 r3 r4 r5 r6 r7 : Byte) (s : State), s.initialized = true → 8 ≤ slot.toNat →
    exec (.createChar slot r0 r1 r2 r3 r4 r5 r6 r7) s = .next (rejectedBadSlot s)) ∧
  (∀ (slot r0 r1 r2 r3 r4 r5 r6 r7 : Byte) (s : State), s.initialized = false →
    exec (.createChar slot r0 r1 r2 r3 r4 r5 r6 r7) s = .next (rejectedNotInit s)) ∧
  (∀ w : ReqWord, w.toNat % 16 = 12 →
    decode w = .createChar (BitVec.ofNat 8 (w.toNat / 2 ^ 8)) (BitVec.ofNat 8 (w.toNat / 2 ^ 24))
      (BitVec.ofNat 8 (w.toNat / 2 ^ 32)) (BitVec.ofNat 8 (w.toNat / 2 ^ 40))
      (BitVec.ofNat 8 (w.toNat / 2 ^ 48)) (BitVec.ofNat 8 (w.toNat / 2 ^ 56))
      (BitVec.ofNat 8 (w.toNat / 2 ^ 64)) (BitVec.ofNat 8 (w.toNat / 2 ^ 72))
      (BitVec.ofNat 8 (w.toNat / 2 ^ 80))) ∧
  cgramAddr 7 = 0x78 ∧
  (∀ a : DevAddr,
    jobEvents referenceConfig a true (.byte 0x40 .command :: List.replicate 8 (.byte 0x1F .character)) =
      [.write a 0x48, .write a 0x4C, .write a 0x48, .write a 0x08, .write a 0x0C, .write a 0x08] ++
      (List.replicate 8 [.write a 0x19, .write a 0x1D, .write a 0x19,
        .write a 0xF9, .write a 0xFD, .write a 0xF9]).flatten)

/-- SEND_BYTE (R146): one byte in the mode the request names, and no hold after it; NOT_INIT before
INIT. -/
def Obligations.SendByteStartsItsJob : Prop :=
  (∀ (v : Byte) (m : Mode) (s : State), s.initialized = true →
    exec (.sendByte v m) s = .next (startsWriting s [.byte v m])) ∧
  (∀ (v : Byte) (m : Mode) (s : State), s.initialized = false →
    exec (.sendByte v m) s = .next (rejectedNotInit s)) ∧
  (∀ w : ReqWord, w.toNat % 16 = 13 →
    decode w = .sendByte (BitVec.ofNat 8 (w.toNat / 2 ^ 8))
      (if w.toNat / 2 ^ 4 % 2 = 1 then .character else .command)) ∧
  (∀ a : DevAddr, jobEvents referenceConfig a true [.byte 0x41 .character] =
    [.write a 0x49, .write a 0x4D, .write a 0x49, .write a 0x19, .write a 0x1D, .write a 0x19]) ∧
  (∀ a : DevAddr, jobEvents referenceConfig a false [.byte 0x41 .character] =
    [.write a 0x41, .write a 0x45, .write a 0x41, .write a 0x11, .write a 0x15, .write a 0x11])

/-! ## The phase machine -/

/-- The OPEN phase (R118): the open waits for `bo_done`; with `bo_ok = 1` the job advances, with
`bo_ok = 0` INIT_BUS_FAIL is raised and the job ends without setting `INITIALIZED`. -/
def Obligations.OpenPhaseRows : Prop :=
  (∀ s : State, s.ph = .openBus → (pins s).rst = false → (pins s).boDone = false →
    step s = .next (quietEdge s)) ∧
  (∀ s : State, s.ph = .openBus → (pins s).rst = false → (pins s).boDone = true →
    (pins s).boOk = true →
    step s = advance { quietEdge s with trace := s.trace ++ [.opened s.addr true] }) ∧
  (∀ s : State, s.ph = .openBus → (pins s).rst = false → (pins s).boDone = true →
    (pins s).boOk = false →
    step s = .next { quietEdge s with
      trace := s.trace ++ [.opened s.addr false], errInit := true, dv := true, dc := 1, ph := .idle })

/-- The WRITE phase of a Byte step (R114, R116, R117, and their rows of R121): the write waits for
`bw_done`, its byte constant; then the enable-high write follows the data write at once, and the holds
of `N_HOLD_HI` and `N_HOLD_LO` follow the enable-high and the enable-low write. -/
def Obligations.WritePhaseRows : Prop :=
  (∀ s : State, s.ph = .write → (pins s).rst = false → (pins s).bwDone = false →
    step s = .next (quietEdge s) ∧ bwData (quietEdge s) = bwData s) ∧
  (∀ (s : State) (v : Byte) (m : Mode), s.cfg.valid = true → s.ph = .write → (pins s).rst = false →
    (pins s).bwDone = true → currentStep s = some (.byte v m) →
    step s = .next (match s.w with
      | .data => { quietEdge s with
          w := .enHigh,
          trace := s.trace ++ [.write s.addr (unitByte s.cfg v m s.bl s.u)] }
      | .enHigh => { quietEdge s with
          ph := .hold, cnt := s.cfg.nHoldHi,
          trace := s.trace ++ [.write s.addr (unitByte s.cfg v m s.bl s.u ||| enMask s.cfg)] }
      | .enLow => { quietEdge s with
          ph := .hold, cnt := s.cfg.nHoldLo,
          trace := s.trace ++ [.write s.addr (unitByte s.cfg v m s.bl s.u &&& ~~~ enMask s.cfg)] }))

/-- The HOLD phase (R115 and its rows of R121): the counter falls by 1; at 1 the hold ends, and the
next write, the next unit or the next step follows. An idle edge without a request does nothing. The one row R121 does not list, `CNT = 0`, is
the model's fault `holdCountZero` (log entry 8). -/
def Obligations.HoldAndIdleRows : Prop :=
  (∀ s : State, s.ph = .idle → (pins s).rst = false → (pins s).reqValid = false →
    step s = .next (quietEdge s)) ∧
  (∀ s : State, s.ph = .hold → (pins s).rst = false → 1 < s.cnt →
    step s = .next { quietEdge s with cnt := s.cnt - 1 }) ∧
  (∀ (s : State) (n : Nat), s.ph = .hold → (pins s).rst = false → s.cnt = 1 →
    currentStep s = some (.hold n) → step s = advance (quietEdge s)) ∧
  (∀ (s : State) (v : Byte) (m : Mode), s.ph = .hold → (pins s).rst = false → s.cnt = 1 →
    currentStep s = some (.byte v m) → s.w = .enHigh →
    step s = .next { quietEdge s with ph := .write, w := .enLow }) ∧
  (∀ (s : State) (v : Byte) (m : Mode), s.ph = .hold → (pins s).rst = false → s.cnt = 1 →
    currentStep s = some (.byte v m) → s.w = .enLow → s.u = .high →
    step s = .next { quietEdge s with ph := .write, u := .low, w := .data }) ∧
  (∀ (s : State) (v : Byte) (m : Mode), s.ph = .hold → (pins s).rst = false → s.cnt = 1 →
    currentStep s = some (.byte v m) → s.w = .enLow → s.u = .low →
    step s = advance (quietEdge s)) ∧
  (∀ s : State, s.ph = .hold → (pins s).rst = false → s.cnt = 0 → step s = .fault .holdCountZero)

/-- `advance()` and `end_job()` (R119, R120): after the last step the block is IDLE, and INITIALIZED
after INIT; else the next step starts at once, a Byte with its high unit's data write, a Hold with its
count. -/
def Obligations.AdvanceStartsNextStep : Prop :=
  (∀ s : State, s.stepIx.toNat + 1 = s.job.length → s.req.toNat % 16 = 0 →
    advance s = .next { s with ph := .idle, initialized := true }) ∧
  (∀ s : State, s.stepIx.toNat + 1 = s.job.length → s.req.toNat % 16 ≠ 0 →
    advance s = .next { s with ph := .idle }) ∧
  (∀ (s : State) (v : Byte) (m : Mode), s.job[s.stepIx.toNat + 1]? = some (.byte v m) →
    advance s = .next { s with stepIx := s.stepIx + 1, ph := .write, u := .high, w := .data }) ∧
  (∀ (s : State) (n : Nat), n < 2 ^ s.cfg.cntW → s.job[s.stepIx.toNat + 1]? = some (.hold n) →
    advance s = .next { s with stepIx := s.stepIx + 1, ph := .hold, cnt := n }) ∧
  (∀ (s : State) (a : DevAddr), s.job[s.stepIx.toNat + 1]? = some (.busOpen a) →
    advance s = .next { s with stepIx := s.stepIx + 1, ph := .openBus })

/-- A hold of `n` keeps the block in HOLD for exactly `n` cycles, with no bus write and no open: the
count after `j` edges is `n - j`, and the `n`-th edge is the one that finds it at 1 (R115). -/
def Obligations.HoldLastsItsCount : Prop :=
  ∀ (s : State) (ins rest : List Inputs) (j : Nat), s.ph = .hold → s.stim = ins ++ rest →
    noReset ins = true → ins.length = j → j < s.cnt →
    runFor j s = .next { s with
      cnt := s.cnt - j, stim := rest, dv := if j = 0 then s.dv else false } ∧
    bwValid s = false ∧ boReq s = false

/-- A transport that never completes leaves the block in WRITE or OPEN for as long as it is not reset:
no error bit is set, `BUSY` stays 1 and `req_ready` 0; a reset leaves that state (R250). -/
def Obligations.StalledTransportHangs : Prop :=
  (∀ (s : State) (ins rest : List Inputs), s.ph = .write → s.stim = ins ++ rest →
    stalledWrite ins = true →
    runFor ins.length s = .next { s with stim := rest, dv := if ins = [] then s.dv else false } ∧
    busy s = true ∧ reqReady s = false) ∧
  (∀ (s : State) (ins rest : List Inputs), s.ph = .openBus → s.stim = ins ++ rest →
    stalledOpen ins = true →
    runFor ins.length s = .next { s with stim := rest, dv := if ins = [] then s.dv else false } ∧
    busy s = true ∧ reqReady s = false) ∧
  (∀ s t : State, (pins s).rst = true → step s = .next t → t.ph = .idle ∧ busy t = false)

/-- A Byte step under every schedule of latencies (R125, R142, R116, R117, R124): six bus writes in
the fixed order, `N_HOLD_HI` cycles after each enable-high write and `N_HOLD_LO` after each
enable-low write, then the job advances; nothing else of the state changes on the way. The schedule is
cut into the six writes' slots `w1` to `w6`, each of any length, and the four holds `h1` to `h4`. -/
def Obligations.ByteStepSendsSixWrites : Prop :=
  ∀ (s : State) (v : Byte) (m : Mode)
    (w1 w2 h1 w3 h2 w4 w5 h3 w6 h4 rest : List Inputs),
    s.cfg.valid = true → s.ph = .write → s.u = .high → s.w = .data →
    currentStep s = some (.byte v m) →
    (∀ l ∈ [w1, w2, w3, w4, w5, w6], writeSlot l = true) →
    (∀ l ∈ [h1, h2, h3, h4], noReset l = true) →
    h1.length = s.cfg.nHoldHi → h2.length = s.cfg.nHoldLo →
    h3.length = s.cfg.nHoldHi → h4.length = s.cfg.nHoldLo →
    s.stim = w1 ++ w2 ++ h1 ++ w3 ++ h2 ++ w4 ++ w5 ++ h3 ++ w6 ++ h4 ++ rest →
    runFor (w1.length + w2.length + h1.length + w3.length + h2.length +
        w4.length + w5.length + h3.length + w6.length + h4.length) s =
      advance { s with
        stim := rest, dv := false, cnt := 1, ph := .hold, u := .low, w := .enLow,
        trace := s.trace ++
          [.write s.addr (encHi s.cfg v m s.bl),
           .write s.addr (encHi s.cfg v m s.bl ||| enMask s.cfg),
           .write s.addr (encHi s.cfg v m s.bl),
           .write s.addr (encLo s.cfg v m s.bl),
           .write s.addr (encLo s.cfg v m s.bl ||| enMask s.cfg),
           .write s.addr (encLo s.cfg v m s.bl)] }

/-! ## Whole jobs -/

/-- The bus trace is conserved by every edge of a job: what has been sent followed by what the job
still has to send does not change, but where the bus open fails, which ends the job (R59, R125,
R162). So a job's trace is the concatenation of its Byte steps' traces, in order, whatever the
latencies. -/
def Obligations.EdgeConservesTrace : Prop :=
  ∀ s t : State, inv s = true → s.ph ≠ .idle → (pins s).rst = false → step s = .next t →
    (t.trace ++ pending t = s.trace ++ pending s) ∨
    (s.ph = .openBus ∧ (pins s).boDone = true ∧ (pins s).boOk = false ∧ t.ph = .idle ∧
      t.trace = s.trace ++ [.opened s.addr false] ∧ pending t = [])

/-- A whole job in progress, run to its end under any schedule without a reset and without a failing
open, adds exactly its trace (R59, R125). -/
def Obligations.JobRunEmitsItsTrace : Prop :=
  ∀ (s t : State) (ins rest : List Inputs), inv s = true → s.stim = ins ++ rest →
    noReset ins = true → ins.all (fun inp => inp.boOk) = true →
    (∀ j, j < ins.length → ∃ r, runFor j s = .next r ∧ r.ph ≠ .idle) →
    runFor ins.length s = .next t →
    t.trace ++ pending t = s.trace ++ pending s ∧
    (t.ph = .idle → t.trace = s.trace ++ pending s)

/-- What an accepted request is still to send and how long it is to take are those of the whole job
it started; a rejected one sends nothing (R112, R125, R283). -/
def Obligations.AcceptanceOwesWholeJob : Prop :=
  ∀ (i : Instr) (s t : State), exec i s = .next t →
    t.trace = s.trace ∧
    (t.ph ≠ .idle → pending t = jobEvents t.cfg t.addr t.bl t.job ∧
      remainingCycles t = jobCycles t.cfg t.job) ∧
    (t.ph = .idle → pending t = [] ∧ t.dv = true ∧ t.job = s.job)

/-- The number of bus writes of each request (R283): 48 for INIT whose open succeeds, 54 for an
accepted CREATE_CHAR, 6 for every other accepted request, none for a rejected one, and none for an
INIT whose open fails. -/
def Obligations.WritesPerRequest : Prop :=
  (∀ (i : Instr) (s t : State), exec i s = .next t →
    countWrites (pending t) =
      if t.ph = .idle then 0
      else match i with
        | .init _ => 48
        | .createChar _ _ _ _ _ _ _ _ _ => 54
        | _ => 6) ∧
  (∀ s t : State, s.ph = .openBus → (pins s).rst = false → (pins s).boDone = true →
    (pins s).boOk = false → step s = .next t →
    countWrites (pending t) = 0 ∧ countWrites t.trace = countWrites s.trace)

/-- With every write and open completed in its first cycle, each edge of a job takes one off the
cycles it still has (R282). -/
def Obligations.PromptEdgeTakesOneCycle : Prop :=
  ∀ s : State, inv s = true → s.ph ≠ .idle → prompt (pins s) = true →
    ∃ t : State, step s = .next t ∧ remainingCycles t + 1 = remainingCycles s

/-- With every write and open completed in its first cycle, a job ends after exactly its cycles, and
not before (R282). -/
def Obligations.PromptJobEndsOnTime : Prop :=
  ∀ (s : State) (ins rest : List Inputs), inv s = true → s.stim = ins ++ rest →
    ins.length = remainingCycles s → ins.all prompt = true →
    (∃ t, runFor ins.length s = .next t ∧ t.ph = .idle) ∧
    (∀ j, j < ins.length → ∃ r, runFor j s = .next r ∧ r.ph ≠ .idle)

/-- The costs of the requests in the reference configuration with every latency 1 (R282): INIT 307909
cycles, CLEAR and HOME 1676, CREATE_CHAR 1584, every other request 176. -/
def Obligations.ReferenceCycleCounts : Prop :=
  ∀ (i : Instr) (s t : State), s.cfg = referenceConfig → exec i s = .next t → t.ph ≠ .idle →
    jobCycles t.cfg t.job =
      match i with
      | .init _ => 307909
      | .clear => 1676
      | .home => 1676
      | .createChar _ _ _ _ _ _ _ _ _ => 1584
      | _ => 176

/-! ## Flags, status, outputs -/

/-- During a job `BL`, `ID`, `SH` and `ADDR` do not change, nor do the job, the request and the
parameters (R31). -/
def Obligations.JobKeepsFlags : Prop :=
  ∀ s t : State, s.ph ≠ .idle → (pins s).rst = false → step s = .next t →
    t.bl = s.bl ∧ t.id = s.id ∧ t.sh = s.sh ∧ t.addr = s.addr ∧ t.job = s.job ∧ t.req = s.req ∧
    t.cfg = s.cfg

/-- Only the acceptance of its own request changes a flag or the address, and only to that request's
value (R22, R23, R24, R25). -/
def Obligations.FlagWriters : Prop :=
  ∀ s t : State, (pins s).rst = false → step s = .next t →
    (t.bl ≠ s.bl → accepts (pins s) s = true ∧ s.initialized = true ∧
      decode (pins s).reqWord = .backlight t.bl) ∧
    (t.id ≠ s.id → accepts (pins s) s = true ∧ s.initialized = true ∧
      decode (pins s).reqWord = (if t.id then .entryLeft else .entryRight)) ∧
    (t.sh ≠ s.sh → accepts (pins s) s = true ∧ s.initialized = true ∧
      decode (pins s).reqWord = (if t.sh then .autoScroll else .noAutoScroll)) ∧
    (t.addr ≠ s.addr → accepts (pins s) s = true ∧ decode (pins s).reqWord = .init t.addr)

/-- `INITIALIZED` falls only at the acceptance of an INIT and rises only at the edge that ends an
INIT's job; it is 0 for the whole of that job (R26, R163). -/
def Obligations.InitializedWriters : Prop :=
  (∀ s t : State, (pins s).rst = false → step s = .next t →
    (s.initialized = true → t.initialized = false →
      accepts (pins s) s = true ∧ ∃ a, decode (pins s).reqWord = .init a) ∧
    (s.initialized = false → t.initialized = true →
      s.ph ≠ .idle ∧ s.req.toNat % 16 = 0 ∧ s.stepIx.toNat + 1 = s.job.length ∧ t.ph = .idle)) ∧
  (∀ s : State, inv s = true → s.ph ≠ .idle → s.req.toNat % 16 = 0 → s.initialized = false)

/-- The fields of `STATUS`; its reserved bits read 0; its value after reset (R29). -/
def Obligations.StatusFields : Prop :=
  ∀ s : State,
    (status s).getLsbD 0 = s.initialized ∧ (status s).getLsbD 1 = decide (s.ph ≠ .idle) ∧
    (status s).getLsbD 2 = s.bl ∧ (status s).getLsbD 3 = s.id ∧ (status s).getLsbD 4 = s.sh ∧
    (status s).extractLsb' 5 3 = 0 ∧
    (status s).getLsbD 8 = s.errInit ∧ (status s).getLsbD 9 = s.errSlot ∧
    (status s).getLsbD 10 = s.errNoinit ∧ (status s).getLsbD 11 = s.errOp ∧
    (status s).extractLsb' 12 4 = 0 ∧
    status State.reset = 0x000C

/-- The output ports, in every cycle (R122): `bw_addr` and `bo_addr` are `ADDR` and `bw_data` is the
byte that `W` selects of the current unit `T`, whatever the phase; on a Byte step `T` is the high unit
where `U = 0` and the low one where `U = 1`. While a write waits `bw_data` is constant; in a write no RW
is ever driven, and EN is driven by the enable-high write alone (R89, R124). `CNT` is visible on no port
(R253). Nothing is said of `T` where the current step is no Byte and R122 gives none (log entry 13). -/
def Obligations.OutputsDecodeState : Prop :=
  (∀ s : State,
    (outputs s).bwValid = decide (s.ph = .write) ∧ (outputs s).boReq = decide (s.ph = .openBus) ∧
    (outputs s).bwAddr = s.addr ∧ (outputs s).boAddr = s.addr ∧
    (outputs s).bwData = (match s.w with
      | .data => currentUnit s
      | .enHigh => currentUnit s ||| enMask s.cfg
      | .enLow => currentUnit s &&& ~~~ enMask s.cfg) ∧
    (outputs s).reqReady = (decide (s.ph = .idle) && !(pins s).rst) ∧
    (outputs s).status = status s ∧ (outputs s).diagValid = s.dv ∧ (outputs s).diagCode = s.dc) ∧
  (∀ (s : State) (v : Byte) (m : Mode), currentStep s = some (.byte v m) →
    currentUnit s = if s.u = .high then encHi s.cfg v m s.bl else encLo s.cfg v m s.bl) ∧
  (∀ s t : State, s.ph = .write → (pins s).rst = false → (pins s).bwDone = false → step s = .next t →
    bwData t = bwData s ∧ bwAddr t = bwAddr s) ∧
  (∀ s : State, inv s = true → s.ph = .write →
    bwData s &&& rwMask s.cfg = 0 ∧
    bwData s &&& enMask s.cfg = if s.w = .enHigh then enMask s.cfg else 0) ∧
  (∀ (s : State) (n : Nat), outputs { s with cnt := n } = outputs s)

/-! ## Reset and the invariant -/

/-- An edge with `rst = 1`, in any state: every element takes its reset value, `ADDR` and `REQ` some
value, a job is abandoned, and no request is accepted; in the next cycle no bus operation is
requested, no diagnostic is raised, nothing is still to be sent, and `STATUS` reads 0x000C (R270,
R271). The record outside the block, `trace`, is not named (log entry 6). -/
def Obligations.ResetEdgeGivesResetState : Prop :=
  ∀ s : State, (pins s).rst = true →
    reqReady s = false ∧
    ∃ (a : DevAddr) (r : ReqWord) (d : Nat) (events : List BusEvent),
      step s = .next {
        bl := true, id := true, sh := false, addr := a, initialized := false,
        errInit := false, errSlot := false, errNoinit := false, errOp := false, ph := .idle, req := r,
        job := [], stepIx := 0, u := .high, w := .data, cnt := 0, dv := false, dc := 0, cfg := s.cfg,
        stim := s.stim.tail, draws := d, trace := events } ∧
      (∀ t, step s = .next t →
        bwValid t = false ∧ boReq t = false ∧ diagValid t = false ∧ pending t = [] ∧ status t = 0x000C)

/-- The state after reset: the values 10_state.md gives (R22 to R30, R34). `ADDR` and `REQ`, for which
it gives none, are not named. -/
def Obligations.ResetStateValues : Prop :=
  State.reset.bl = true ∧ State.reset.id = true ∧ State.reset.sh = false ∧
  State.reset.initialized = false ∧ State.reset.errInit = false ∧ State.reset.errSlot = false ∧
  State.reset.errNoinit = false ∧ State.reset.errOp = false ∧ State.reset.ph = .idle ∧
  State.reset.job = [] ∧ State.reset.stepIx = 0 ∧ State.reset.u = .high ∧ State.reset.w = .data ∧
  State.reset.cnt = 0 ∧ State.reset.dv = false ∧ State.reset.dc = 0 ∧
  status State.reset = 0x000C ∧ bwValid State.reset = false ∧ boReq State.reset = false

/-- After reset the block performs no bus activity until an INIT is accepted: from every IDLE state
with `INITIALIZED = 0`, over any schedule that presents no INIT, it stays there, and the trace does
not grow (R272). -/
def Obligations.QuietUntilInit : Prop :=
  ∀ (s : State) (ins rest : List Inputs), s.ph = .idle → s.initialized = false →
    s.stim = ins ++ rest → noInit ins = true →
    ∃ t, runFor ins.length s = .next t ∧ t.ph = .idle ∧ t.initialized = false ∧ t.trace = s.trace ∧
      bwValid t = false ∧ boReq t = false ∧ t.bl = s.bl ∧ t.id = s.id ∧ t.sh = s.sh ∧ t.addr = s.addr

/-- The value `ADDR` has after reset is never observed: in IDLE before an INIT the two address ports
show it, as R122 has them do in every cycle, but `bw_valid` and `bo_req` are 0, so both are meaningless
(R32), and no other output depends on it. An edge gives the same next state, or the same but for `ADDR`;
the same altogether where the edge leaves IDLE, as the acceptance of an INIT does (R25). -/
def Obligations.ResetAddressNeverObserved : Prop :=
  ∀ (s t : State) (a : DevAddr), s.ph = .idle → s.initialized = false → step s = .next t →
    outputs { s with addr := a } = { outputs s with bwAddr := a, boAddr := a } ∧
    (outputs s).bwValid = false ∧ (outputs s).boReq = false ∧
    (step { s with addr := a } = .next t ∨ step { s with addr := a } = .next { t with addr := a }) ∧
    (t.ph ≠ .idle → step { s with addr := a } = .next t)

/-- Every edge keeps the invariant: a valid configuration, the counter within its width, a legal
diagnostic code, phase, `W` and `CNT` in agreement with the current step, at most 12 steps, and
`INITIALIZED = 0` exactly in INIT's job (R26, R30, R115, R163, R241). -/
def Obligations.StepKeepsInvariant : Prop :=
  ∀ s t : State, inv s = true → step s = .next t → inv t = true

/-- The invariant holds after reset. -/
def Obligations.ResetHasInvariant : Prop := inv State.reset = true

/-- In every state with the invariant the block has a next state: no row that R121 does not list is
reached, so no fault (R115, R121). -/
def Obligations.InvariantStepsGoOn : Prop :=
  ∀ s : State, inv s = true → ∃ t, step s = .next t

/-- No request is refused: in no state does a step end in a refusal, and an accepted request never
ends in a fault either (R240, R248). -/
def Obligations.NoRequestIsRefused : Prop :=
  (∀ (s : State) (r : Refusal), step s ≠ .refused r) ∧
  (∀ (i : Instr) (s : State), ∃ t, exec i s = .next t)
end

