-- ==== Sys2Proof/Laws/Decode.lean ====
section
/-! SUPPORT. What the fields of an assembled word are: each field reads back what was put there. -/

namespace Sys2Proof

theorem opOf_wordOf (op : BitVec 4) (m : Bool) (a b : Byte) (g : BitVec 64) :
    opOf (wordOf op m a b g) = op := by
  unfold opOf wordOf
  ext i hi
  have h1 : i < 8 := by omega
  have h2 : i < 16 := by omega
  have h3 : i < 24 := by omega
  have h4 : i < 88 := by omega
  simp [*]

theorem mOf_wordOf (op : BitVec 4) (m : Bool) (a b : Byte) (g : BitVec 64) :
    mOf (wordOf op m a b g) = m := by
  simp [mOf, wordOf]

theorem aOf_wordOf (op : BitVec 4) (m : Bool) (a b : Byte) (g : BitVec 64) :
    aOf (wordOf op m a b g) = a := by
  unfold aOf wordOf
  ext i hi
  have h0 : op.getLsbD (8 + i) = false := BitVec.getLsbD_of_ge _ _ (by omega)
  have h1 : ¬ 8 + i < 4 := by omega
  have h2 : 8 + i - 4 ≥ 1 := by omega
  have h3 : 8 + i < 88 := by omega
  have h4 : 8 + i < 16 := by omega
  have h5 : 8 + i < 24 := by omega
  simp [*]

theorem bOf_wordOf (op : BitVec 4) (m : Bool) (a b : Byte) (g : BitVec 64) :
    bOf (wordOf op m a b g) = b := by
  unfold bOf wordOf
  ext i hi
  have h0 : op.getLsbD (16 + i) = false := BitVec.getLsbD_of_ge _ _ (by omega)
  have h1 : a.getLsbD (16 + i - 8) = false := BitVec.getLsbD_of_ge _ _ (by omega)
  have h2 : 16 + i - 4 ≥ 1 := by omega
  have h3 : 16 + i < 88 := by omega
  have h4 : 16 + i < 24 := by omega
  simp [*]

theorem gOf_wordOf (op : BitVec 4) (m : Bool) (a b : Byte) (g : BitVec 64) :
    gOf (wordOf op m a b g) = g := by
  unfold gOf wordOf
  ext i hi
  have h0 : op.getLsbD (24 + i) = false := BitVec.getLsbD_of_ge _ _ (by omega)
  have h1 : a.getLsbD (24 + i - 8) = false := BitVec.getLsbD_of_ge _ _ (by omega)
  have h2 : b.getLsbD (24 + i - 16) = false := BitVec.getLsbD_of_ge _ _ (by omega)
  have h3 : 24 + i - 4 ≥ 1 := by omega
  have h4 : 24 + i < 88 := by omega
  simp [*]

theorem rowOf_wordOf (op : BitVec 4) (m : Bool) (a b : Byte) (g : BitVec 64) (i : Nat) :
    rowOf (wordOf op m a b g) i = g.extractLsb' (8 * i) 8 := by
  simp [rowOf, gOf_wordOf]

/-- The rows of an assembled glyph, row 0 lowest. -/
theorem glyphOf_rows (r0 r1 r2 r3 r4 r5 r6 r7 : Byte) :
    ∀ i : Fin 8, (glyphOf r0 r1 r2 r3 r4 r5 r6 r7).extractLsb' (8 * i.val) 8 =
      [r0, r1, r2, r3, r4, r5, r6, r7][i.val] := by
  intro i
  unfold glyphOf
  fin_cases i <;> (ext k hk; interval_cases k <;> simp)

theorem modeOfBit_modeBit (m : Mode) : modeOfBit (modeBit m) = m := by cases m <;> rfl

theorem modeBit_modeOfBit (b : Bool) : modeBit (modeOfBit b) = b := by cases b <;> rfl

end Sys2Proof
end

