-- ==== Sys2Proof/Laws/State.lean ====
section
/-! SUPPORT. Beside State: one lemma per field per record update, so that no later proof unfolds an
update. Each is true by rfl. -/

namespace Sys2Proof.Machine

/-! setBl -/

@[simp] theorem setBl_bl (v : Bool) (s : State) : (setBl v s).bl = v := rfl
@[simp] theorem setBl_id (v : Bool) (s : State) : (setBl v s).id = s.id := rfl
@[simp] theorem setBl_sh (v : Bool) (s : State) : (setBl v s).sh = s.sh := rfl
@[simp] theorem setBl_addr (v : Bool) (s : State) : (setBl v s).addr = s.addr := rfl
@[simp] theorem setBl_initialized (v : Bool) (s : State) : (setBl v s).initialized = s.initialized := rfl
@[simp] theorem setBl_errInit (v : Bool) (s : State) : (setBl v s).errInit = s.errInit := rfl
@[simp] theorem setBl_errSlot (v : Bool) (s : State) : (setBl v s).errSlot = s.errSlot := rfl
@[simp] theorem setBl_errNoinit (v : Bool) (s : State) : (setBl v s).errNoinit = s.errNoinit := rfl
@[simp] theorem setBl_errOp (v : Bool) (s : State) : (setBl v s).errOp = s.errOp := rfl
@[simp] theorem setBl_ph (v : Bool) (s : State) : (setBl v s).ph = s.ph := rfl
@[simp] theorem setBl_req (v : Bool) (s : State) : (setBl v s).req = s.req := rfl
@[simp] theorem setBl_job (v : Bool) (s : State) : (setBl v s).job = s.job := rfl
@[simp] theorem setBl_stepIx (v : Bool) (s : State) : (setBl v s).stepIx = s.stepIx := rfl
@[simp] theorem setBl_u (v : Bool) (s : State) : (setBl v s).u = s.u := rfl
@[simp] theorem setBl_w (v : Bool) (s : State) : (setBl v s).w = s.w := rfl
@[simp] theorem setBl_cnt (v : Bool) (s : State) : (setBl v s).cnt = s.cnt := rfl
@[simp] theorem setBl_dv (v : Bool) (s : State) : (setBl v s).dv = s.dv := rfl
@[simp] theorem setBl_dc (v : Bool) (s : State) : (setBl v s).dc = s.dc := rfl
@[simp] theorem setBl_cfg (v : Bool) (s : State) : (setBl v s).cfg = s.cfg := rfl
@[simp] theorem setBl_stim (v : Bool) (s : State) : (setBl v s).stim = s.stim := rfl
@[simp] theorem setBl_draws (v : Bool) (s : State) : (setBl v s).draws = s.draws := rfl
@[simp] theorem setBl_trace (v : Bool) (s : State) : (setBl v s).trace = s.trace := rfl

/-! setId -/

@[simp] theorem setId_bl (v : Bool) (s : State) : (setId v s).bl = s.bl := rfl
@[simp] theorem setId_id (v : Bool) (s : State) : (setId v s).id = v := rfl
@[simp] theorem setId_sh (v : Bool) (s : State) : (setId v s).sh = s.sh := rfl
@[simp] theorem setId_addr (v : Bool) (s : State) : (setId v s).addr = s.addr := rfl
@[simp] theorem setId_initialized (v : Bool) (s : State) : (setId v s).initialized = s.initialized := rfl
@[simp] theorem setId_errInit (v : Bool) (s : State) : (setId v s).errInit = s.errInit := rfl
@[simp] theorem setId_errSlot (v : Bool) (s : State) : (setId v s).errSlot = s.errSlot := rfl
@[simp] theorem setId_errNoinit (v : Bool) (s : State) : (setId v s).errNoinit = s.errNoinit := rfl
@[simp] theorem setId_errOp (v : Bool) (s : State) : (setId v s).errOp = s.errOp := rfl
@[simp] theorem setId_ph (v : Bool) (s : State) : (setId v s).ph = s.ph := rfl
@[simp] theorem setId_req (v : Bool) (s : State) : (setId v s).req = s.req := rfl
@[simp] theorem setId_job (v : Bool) (s : State) : (setId v s).job = s.job := rfl
@[simp] theorem setId_stepIx (v : Bool) (s : State) : (setId v s).stepIx = s.stepIx := rfl
@[simp] theorem setId_u (v : Bool) (s : State) : (setId v s).u = s.u := rfl
@[simp] theorem setId_w (v : Bool) (s : State) : (setId v s).w = s.w := rfl
@[simp] theorem setId_cnt (v : Bool) (s : State) : (setId v s).cnt = s.cnt := rfl
@[simp] theorem setId_dv (v : Bool) (s : State) : (setId v s).dv = s.dv := rfl
@[simp] theorem setId_dc (v : Bool) (s : State) : (setId v s).dc = s.dc := rfl
@[simp] theorem setId_cfg (v : Bool) (s : State) : (setId v s).cfg = s.cfg := rfl
@[simp] theorem setId_stim (v : Bool) (s : State) : (setId v s).stim = s.stim := rfl
@[simp] theorem setId_draws (v : Bool) (s : State) : (setId v s).draws = s.draws := rfl
@[simp] theorem setId_trace (v : Bool) (s : State) : (setId v s).trace = s.trace := rfl

/-! setSh -/

@[simp] theorem setSh_bl (v : Bool) (s : State) : (setSh v s).bl = s.bl := rfl
@[simp] theorem setSh_id (v : Bool) (s : State) : (setSh v s).id = s.id := rfl
@[simp] theorem setSh_sh (v : Bool) (s : State) : (setSh v s).sh = v := rfl
@[simp] theorem setSh_addr (v : Bool) (s : State) : (setSh v s).addr = s.addr := rfl
@[simp] theorem setSh_initialized (v : Bool) (s : State) : (setSh v s).initialized = s.initialized := rfl
@[simp] theorem setSh_errInit (v : Bool) (s : State) : (setSh v s).errInit = s.errInit := rfl
@[simp] theorem setSh_errSlot (v : Bool) (s : State) : (setSh v s).errSlot = s.errSlot := rfl
@[simp] theorem setSh_errNoinit (v : Bool) (s : State) : (setSh v s).errNoinit = s.errNoinit := rfl
@[simp] theorem setSh_errOp (v : Bool) (s : State) : (setSh v s).errOp = s.errOp := rfl
@[simp] theorem setSh_ph (v : Bool) (s : State) : (setSh v s).ph = s.ph := rfl
@[simp] theorem setSh_req (v : Bool) (s : State) : (setSh v s).req = s.req := rfl
@[simp] theorem setSh_job (v : Bool) (s : State) : (setSh v s).job = s.job := rfl
@[simp] theorem setSh_stepIx (v : Bool) (s : State) : (setSh v s).stepIx = s.stepIx := rfl
@[simp] theorem setSh_u (v : Bool) (s : State) : (setSh v s).u = s.u := rfl
@[simp] theorem setSh_w (v : Bool) (s : State) : (setSh v s).w = s.w := rfl
@[simp] theorem setSh_cnt (v : Bool) (s : State) : (setSh v s).cnt = s.cnt := rfl
@[simp] theorem setSh_dv (v : Bool) (s : State) : (setSh v s).dv = s.dv := rfl
@[simp] theorem setSh_dc (v : Bool) (s : State) : (setSh v s).dc = s.dc := rfl
@[simp] theorem setSh_cfg (v : Bool) (s : State) : (setSh v s).cfg = s.cfg := rfl
@[simp] theorem setSh_stim (v : Bool) (s : State) : (setSh v s).stim = s.stim := rfl
@[simp] theorem setSh_draws (v : Bool) (s : State) : (setSh v s).draws = s.draws := rfl
@[simp] theorem setSh_trace (v : Bool) (s : State) : (setSh v s).trace = s.trace := rfl

/-! setInitialized -/

@[simp] theorem setInitialized_bl (v : Bool) (s : State) : (setInitialized v s).bl = s.bl := rfl
@[simp] theorem setInitialized_id (v : Bool) (s : State) : (setInitialized v s).id = s.id := rfl
@[simp] theorem setInitialized_sh (v : Bool) (s : State) : (setInitialized v s).sh = s.sh := rfl
@[simp] theorem setInitialized_addr (v : Bool) (s : State) : (setInitialized v s).addr = s.addr := rfl
@[simp] theorem setInitialized_initialized (v : Bool) (s : State) : (setInitialized v s).initialized = v := rfl
@[simp] theorem setInitialized_errInit (v : Bool) (s : State) : (setInitialized v s).errInit = s.errInit := rfl
@[simp] theorem setInitialized_errSlot (v : Bool) (s : State) : (setInitialized v s).errSlot = s.errSlot := rfl
@[simp] theorem setInitialized_errNoinit (v : Bool) (s : State) : (setInitialized v s).errNoinit = s.errNoinit := rfl
@[simp] theorem setInitialized_errOp (v : Bool) (s : State) : (setInitialized v s).errOp = s.errOp := rfl
@[simp] theorem setInitialized_ph (v : Bool) (s : State) : (setInitialized v s).ph = s.ph := rfl
@[simp] theorem setInitialized_req (v : Bool) (s : State) : (setInitialized v s).req = s.req := rfl
@[simp] theorem setInitialized_job (v : Bool) (s : State) : (setInitialized v s).job = s.job := rfl
@[simp] theorem setInitialized_stepIx (v : Bool) (s : State) : (setInitialized v s).stepIx = s.stepIx := rfl
@[simp] theorem setInitialized_u (v : Bool) (s : State) : (setInitialized v s).u = s.u := rfl
@[simp] theorem setInitialized_w (v : Bool) (s : State) : (setInitialized v s).w = s.w := rfl
@[simp] theorem setInitialized_cnt (v : Bool) (s : State) : (setInitialized v s).cnt = s.cnt := rfl
@[simp] theorem setInitialized_dv (v : Bool) (s : State) : (setInitialized v s).dv = s.dv := rfl
@[simp] theorem setInitialized_dc (v : Bool) (s : State) : (setInitialized v s).dc = s.dc := rfl
@[simp] theorem setInitialized_cfg (v : Bool) (s : State) : (setInitialized v s).cfg = s.cfg := rfl
@[simp] theorem setInitialized_stim (v : Bool) (s : State) : (setInitialized v s).stim = s.stim := rfl
@[simp] theorem setInitialized_draws (v : Bool) (s : State) : (setInitialized v s).draws = s.draws := rfl
@[simp] theorem setInitialized_trace (v : Bool) (s : State) : (setInitialized v s).trace = s.trace := rfl

/-! clearDv -/

@[simp] theorem clearDv_bl (s : State) : (clearDv s).bl = s.bl := rfl
@[simp] theorem clearDv_id (s : State) : (clearDv s).id = s.id := rfl
@[simp] theorem clearDv_sh (s : State) : (clearDv s).sh = s.sh := rfl
@[simp] theorem clearDv_addr (s : State) : (clearDv s).addr = s.addr := rfl
@[simp] theorem clearDv_initialized (s : State) : (clearDv s).initialized = s.initialized := rfl
@[simp] theorem clearDv_errInit (s : State) : (clearDv s).errInit = s.errInit := rfl
@[simp] theorem clearDv_errSlot (s : State) : (clearDv s).errSlot = s.errSlot := rfl
@[simp] theorem clearDv_errNoinit (s : State) : (clearDv s).errNoinit = s.errNoinit := rfl
@[simp] theorem clearDv_errOp (s : State) : (clearDv s).errOp = s.errOp := rfl
@[simp] theorem clearDv_ph (s : State) : (clearDv s).ph = s.ph := rfl
@[simp] theorem clearDv_req (s : State) : (clearDv s).req = s.req := rfl
@[simp] theorem clearDv_job (s : State) : (clearDv s).job = s.job := rfl
@[simp] theorem clearDv_stepIx (s : State) : (clearDv s).stepIx = s.stepIx := rfl
@[simp] theorem clearDv_u (s : State) : (clearDv s).u = s.u := rfl
@[simp] theorem clearDv_w (s : State) : (clearDv s).w = s.w := rfl
@[simp] theorem clearDv_cnt (s : State) : (clearDv s).cnt = s.cnt := rfl
@[simp] theorem clearDv_dv (s : State) : (clearDv s).dv = false := rfl
@[simp] theorem clearDv_dc (s : State) : (clearDv s).dc = s.dc := rfl
@[simp] theorem clearDv_cfg (s : State) : (clearDv s).cfg = s.cfg := rfl
@[simp] theorem clearDv_stim (s : State) : (clearDv s).stim = s.stim := rfl
@[simp] theorem clearDv_draws (s : State) : (clearDv s).draws = s.draws := rfl
@[simp] theorem clearDv_trace (s : State) : (clearDv s).trace = s.trace := rfl

/-! latchReq -/

@[simp] theorem latchReq_bl (word : ReqWord) (s : State) : (latchReq word s).bl = s.bl := rfl
@[simp] theorem latchReq_id (word : ReqWord) (s : State) : (latchReq word s).id = s.id := rfl
@[simp] theorem latchReq_sh (word : ReqWord) (s : State) : (latchReq word s).sh = s.sh := rfl
@[simp] theorem latchReq_addr (word : ReqWord) (s : State) : (latchReq word s).addr = s.addr := rfl
@[simp] theorem latchReq_initialized (word : ReqWord) (s : State) : (latchReq word s).initialized = s.initialized := rfl
@[simp] theorem latchReq_errInit (word : ReqWord) (s : State) : (latchReq word s).errInit = s.errInit := rfl
@[simp] theorem latchReq_errSlot (word : ReqWord) (s : State) : (latchReq word s).errSlot = s.errSlot := rfl
@[simp] theorem latchReq_errNoinit (word : ReqWord) (s : State) : (latchReq word s).errNoinit = s.errNoinit := rfl
@[simp] theorem latchReq_errOp (word : ReqWord) (s : State) : (latchReq word s).errOp = s.errOp := rfl
@[simp] theorem latchReq_ph (word : ReqWord) (s : State) : (latchReq word s).ph = s.ph := rfl
@[simp] theorem latchReq_req (word : ReqWord) (s : State) : (latchReq word s).req = word := rfl
@[simp] theorem latchReq_job (word : ReqWord) (s : State) : (latchReq word s).job = s.job := rfl
@[simp] theorem latchReq_stepIx (word : ReqWord) (s : State) : (latchReq word s).stepIx = s.stepIx := rfl
@[simp] theorem latchReq_u (word : ReqWord) (s : State) : (latchReq word s).u = s.u := rfl
@[simp] theorem latchReq_w (word : ReqWord) (s : State) : (latchReq word s).w = s.w := rfl
@[simp] theorem latchReq_cnt (word : ReqWord) (s : State) : (latchReq word s).cnt = s.cnt := rfl
@[simp] theorem latchReq_dv (word : ReqWord) (s : State) : (latchReq word s).dv = s.dv := rfl
@[simp] theorem latchReq_dc (word : ReqWord) (s : State) : (latchReq word s).dc = s.dc := rfl
@[simp] theorem latchReq_cfg (word : ReqWord) (s : State) : (latchReq word s).cfg = s.cfg := rfl
@[simp] theorem latchReq_stim (word : ReqWord) (s : State) : (latchReq word s).stim = s.stim := rfl
@[simp] theorem latchReq_draws (word : ReqWord) (s : State) : (latchReq word s).draws = s.draws := rfl
@[simp] theorem latchReq_trace (word : ReqWord) (s : State) : (latchReq word s).trace = s.trace := rfl

/-! enterHold -/

@[simp] theorem enterHold_bl (n : Nat) (s : State) : (enterHold n s).bl = s.bl := rfl
@[simp] theorem enterHold_id (n : Nat) (s : State) : (enterHold n s).id = s.id := rfl
@[simp] theorem enterHold_sh (n : Nat) (s : State) : (enterHold n s).sh = s.sh := rfl
@[simp] theorem enterHold_addr (n : Nat) (s : State) : (enterHold n s).addr = s.addr := rfl
@[simp] theorem enterHold_initialized (n : Nat) (s : State) : (enterHold n s).initialized = s.initialized := rfl
@[simp] theorem enterHold_errInit (n : Nat) (s : State) : (enterHold n s).errInit = s.errInit := rfl
@[simp] theorem enterHold_errSlot (n : Nat) (s : State) : (enterHold n s).errSlot = s.errSlot := rfl
@[simp] theorem enterHold_errNoinit (n : Nat) (s : State) : (enterHold n s).errNoinit = s.errNoinit := rfl
@[simp] theorem enterHold_errOp (n : Nat) (s : State) : (enterHold n s).errOp = s.errOp := rfl
@[simp] theorem enterHold_ph (n : Nat) (s : State) : (enterHold n s).ph = .hold := rfl
@[simp] theorem enterHold_req (n : Nat) (s : State) : (enterHold n s).req = s.req := rfl
@[simp] theorem enterHold_job (n : Nat) (s : State) : (enterHold n s).job = s.job := rfl
@[simp] theorem enterHold_stepIx (n : Nat) (s : State) : (enterHold n s).stepIx = s.stepIx := rfl
@[simp] theorem enterHold_u (n : Nat) (s : State) : (enterHold n s).u = s.u := rfl
@[simp] theorem enterHold_w (n : Nat) (s : State) : (enterHold n s).w = s.w := rfl
@[simp] theorem enterHold_cnt (n : Nat) (s : State) : (enterHold n s).cnt = loadCount s.cfg n := rfl
@[simp] theorem enterHold_dv (n : Nat) (s : State) : (enterHold n s).dv = s.dv := rfl
@[simp] theorem enterHold_dc (n : Nat) (s : State) : (enterHold n s).dc = s.dc := rfl
@[simp] theorem enterHold_cfg (n : Nat) (s : State) : (enterHold n s).cfg = s.cfg := rfl
@[simp] theorem enterHold_stim (n : Nat) (s : State) : (enterHold n s).stim = s.stim := rfl
@[simp] theorem enterHold_draws (n : Nat) (s : State) : (enterHold n s).draws = s.draws := rfl
@[simp] theorem enterHold_trace (n : Nat) (s : State) : (enterHold n s).trace = s.trace := rfl

/-! enterWrite -/

@[simp] theorem enterWrite_bl (u : UnitSel) (w : WriteSel) (s : State) : (enterWrite u w s).bl = s.bl := rfl
@[simp] theorem enterWrite_id (u : UnitSel) (w : WriteSel) (s : State) : (enterWrite u w s).id = s.id := rfl
@[simp] theorem enterWrite_sh (u : UnitSel) (w : WriteSel) (s : State) : (enterWrite u w s).sh = s.sh := rfl
@[simp] theorem enterWrite_addr (u : UnitSel) (w : WriteSel) (s : State) : (enterWrite u w s).addr = s.addr := rfl
@[simp] theorem enterWrite_initialized (u : UnitSel) (w : WriteSel) (s : State) : (enterWrite u w s).initialized = s.initialized := rfl
@[simp] theorem enterWrite_errInit (u : UnitSel) (w : WriteSel) (s : State) : (enterWrite u w s).errInit = s.errInit := rfl
@[simp] theorem enterWrite_errSlot (u : UnitSel) (w : WriteSel) (s : State) : (enterWrite u w s).errSlot = s.errSlot := rfl
@[simp] theorem enterWrite_errNoinit (u : UnitSel) (w : WriteSel) (s : State) : (enterWrite u w s).errNoinit = s.errNoinit := rfl
@[simp] theorem enterWrite_errOp (u : UnitSel) (w : WriteSel) (s : State) : (enterWrite u w s).errOp = s.errOp := rfl
@[simp] theorem enterWrite_ph (u : UnitSel) (w : WriteSel) (s : State) : (enterWrite u w s).ph = .write := rfl
@[simp] theorem enterWrite_req (u : UnitSel) (w : WriteSel) (s : State) : (enterWrite u w s).req = s.req := rfl
@[simp] theorem enterWrite_job (u : UnitSel) (w : WriteSel) (s : State) : (enterWrite u w s).job = s.job := rfl
@[simp] theorem enterWrite_stepIx (u : UnitSel) (w : WriteSel) (s : State) : (enterWrite u w s).stepIx = s.stepIx := rfl
@[simp] theorem enterWrite_u (u : UnitSel) (w : WriteSel) (s : State) : (enterWrite u w s).u = u := rfl
@[simp] theorem enterWrite_w (u : UnitSel) (w : WriteSel) (s : State) : (enterWrite u w s).w = w := rfl
@[simp] theorem enterWrite_cnt (u : UnitSel) (w : WriteSel) (s : State) : (enterWrite u w s).cnt = s.cnt := rfl
@[simp] theorem enterWrite_dv (u : UnitSel) (w : WriteSel) (s : State) : (enterWrite u w s).dv = s.dv := rfl
@[simp] theorem enterWrite_dc (u : UnitSel) (w : WriteSel) (s : State) : (enterWrite u w s).dc = s.dc := rfl
@[simp] theorem enterWrite_cfg (u : UnitSel) (w : WriteSel) (s : State) : (enterWrite u w s).cfg = s.cfg := rfl
@[simp] theorem enterWrite_stim (u : UnitSel) (w : WriteSel) (s : State) : (enterWrite u w s).stim = s.stim := rfl
@[simp] theorem enterWrite_draws (u : UnitSel) (w : WriteSel) (s : State) : (enterWrite u w s).draws = s.draws := rfl
@[simp] theorem enterWrite_trace (u : UnitSel) (w : WriteSel) (s : State) : (enterWrite u w s).trace = s.trace := rfl

/-! endJob -/

@[simp] theorem endJob_bl (s : State) : (endJob s).bl = s.bl := rfl
@[simp] theorem endJob_id (s : State) : (endJob s).id = s.id := rfl
@[simp] theorem endJob_sh (s : State) : (endJob s).sh = s.sh := rfl
@[simp] theorem endJob_addr (s : State) : (endJob s).addr = s.addr := rfl
@[simp] theorem endJob_initialized (s : State) : (endJob s).initialized = if opOf s.req = 0x0 then true else s.initialized := rfl
@[simp] theorem endJob_errInit (s : State) : (endJob s).errInit = s.errInit := rfl
@[simp] theorem endJob_errSlot (s : State) : (endJob s).errSlot = s.errSlot := rfl
@[simp] theorem endJob_errNoinit (s : State) : (endJob s).errNoinit = s.errNoinit := rfl
@[simp] theorem endJob_errOp (s : State) : (endJob s).errOp = s.errOp := rfl
@[simp] theorem endJob_ph (s : State) : (endJob s).ph = .idle := rfl
@[simp] theorem endJob_req (s : State) : (endJob s).req = s.req := rfl
@[simp] theorem endJob_job (s : State) : (endJob s).job = s.job := rfl
@[simp] theorem endJob_stepIx (s : State) : (endJob s).stepIx = s.stepIx := rfl
@[simp] theorem endJob_u (s : State) : (endJob s).u = s.u := rfl
@[simp] theorem endJob_w (s : State) : (endJob s).w = s.w := rfl
@[simp] theorem endJob_cnt (s : State) : (endJob s).cnt = s.cnt := rfl
@[simp] theorem endJob_dv (s : State) : (endJob s).dv = s.dv := rfl
@[simp] theorem endJob_dc (s : State) : (endJob s).dc = s.dc := rfl
@[simp] theorem endJob_cfg (s : State) : (endJob s).cfg = s.cfg := rfl
@[simp] theorem endJob_stim (s : State) : (endJob s).stim = s.stim := rfl
@[simp] theorem endJob_draws (s : State) : (endJob s).draws = s.draws := rfl
@[simp] theorem endJob_trace (s : State) : (endJob s).trace = s.trace := rfl

/-! consume -/

@[simp] theorem consume_bl (s : State) : (consume s).bl = s.bl := rfl
@[simp] theorem consume_id (s : State) : (consume s).id = s.id := rfl
@[simp] theorem consume_sh (s : State) : (consume s).sh = s.sh := rfl
@[simp] theorem consume_addr (s : State) : (consume s).addr = s.addr := rfl
@[simp] theorem consume_initialized (s : State) : (consume s).initialized = s.initialized := rfl
@[simp] theorem consume_errInit (s : State) : (consume s).errInit = s.errInit := rfl
@[simp] theorem consume_errSlot (s : State) : (consume s).errSlot = s.errSlot := rfl
@[simp] theorem consume_errNoinit (s : State) : (consume s).errNoinit = s.errNoinit := rfl
@[simp] theorem consume_errOp (s : State) : (consume s).errOp = s.errOp := rfl
@[simp] theorem consume_ph (s : State) : (consume s).ph = s.ph := rfl
@[simp] theorem consume_req (s : State) : (consume s).req = s.req := rfl
@[simp] theorem consume_job (s : State) : (consume s).job = s.job := rfl
@[simp] theorem consume_stepIx (s : State) : (consume s).stepIx = s.stepIx := rfl
@[simp] theorem consume_u (s : State) : (consume s).u = s.u := rfl
@[simp] theorem consume_w (s : State) : (consume s).w = s.w := rfl
@[simp] theorem consume_cnt (s : State) : (consume s).cnt = s.cnt := rfl
@[simp] theorem consume_dv (s : State) : (consume s).dv = s.dv := rfl
@[simp] theorem consume_dc (s : State) : (consume s).dc = s.dc := rfl
@[simp] theorem consume_cfg (s : State) : (consume s).cfg = s.cfg := rfl
@[simp] theorem consume_stim (s : State) : (consume s).stim = s.stim.tail := rfl
@[simp] theorem consume_draws (s : State) : (consume s).draws = if s.stim = [] then s.draws + 1 else s.draws := rfl
@[simp] theorem consume_trace (s : State) : (consume s).trace = s.trace := rfl

end Sys2Proof.Machine
end

