-- ==== Sys2Proof/Laws/Ops.lean ====
section
/-! SUPPORT. For each shared operation one lemma that says everything it can do; later proofs cite it
instead of unfolding the operation. -/

namespace Sys2Proof.Machine

/-! ## Ports -/

@[simp] theorem bwAddr_eq (s : State) : bwAddr s = s.addr := rfl

@[simp] theorem boAddr_eq (s : State) : boAddr s = s.addr := rfl

/-- On a Byte step the current unit is the encoder's. -/
theorem currentUnit_byte {s : State} {v : Byte} {m : Mode} (h : currentStep s = some (.byte v m)) :
    currentUnit s = unitByte s.cfg v m s.bl s.u := by
  simp [currentUnit, h]

/-- On a Byte step `bw_data` is the byte that `W` selects of the encoder's unit. -/
theorem bwData_byte {s : State} {v : Byte} {m : Mode} (h : currentStep s = some (.byte v m)) :
    bwData s = writeByte s.cfg (unitByte s.cfg v m s.bl s.u) s.w := by
  rw [bwData, currentUnit_byte h]

/-- No port shows `CNT` (60_exceptions.md R253). -/
theorem outputs_cnt (s : State) (n : Nat) : outputs { s with cnt := n } = outputs s := rfl

/-- An edge that only uses up its pins leaves `bw_data` as it is. -/
theorem bwData_quietEdge (s : State) : bwData (quietEdge s) = bwData s := rfl

/-! ## Pins and the edge around them -/

@[simp] theorem pins_script (s : State) (inp : Inputs) (rest : List Inputs) :
    pins { s with stim := inp :: rest } = inp := rfl

theorem pins_of_script {s : State} {inp : Inputs} {rest : List Inputs} (h : s.stim = inp :: rest) :
    pins s = inp := by
  simp [pins, h]

/-- What reading the pins does is all that a quiet edge does, besides letting `DV` fall. -/
theorem quietEdge_eq (s : State) : quietEdge s = clearDv (consume s) := rfl

/-- The edge of a phase without a bus operation is quiet. -/
theorem beginEdge_quiet {s : State} (h : s.ph = .idle ∨ s.ph = .hold) : beginEdge s = quietEdge s := by
  rcases h with h | h <;> simp [beginEdge, observeBus, h, quietEdge_eq]

/-- The edge of a waiting write is quiet too. -/
theorem beginEdge_waitingWrite {s : State} (h : s.ph = .write) (hd : (pins s).bwDone = false) :
    beginEdge s = quietEdge s := by
  simp [beginEdge, observeBus, h, hd, quietEdge_eq]

/-- The edge that completes a write adds what the ports show to the trace. -/
theorem beginEdge_doneWrite {s : State} (h : s.ph = .write) (hd : (pins s).bwDone = true) :
    beginEdge s = { quietEdge s with trace := s.trace ++ [.write s.addr (bwData s)] } := by
  have hb : bwData (consume s) = bwData s := rfl
  simp [beginEdge, observeBus, h, hd, hb, quietEdge_eq, clearDv]

/-- The edge of a waiting open is quiet. -/
theorem beginEdge_waitingOpen {s : State} (h : s.ph = .openBus) (hd : (pins s).boDone = false) :
    beginEdge s = quietEdge s := by
  simp [beginEdge, observeBus, h, hd, quietEdge_eq]

/-- The edge that completes the open adds it with its result to the trace. -/
theorem beginEdge_doneOpen {s : State} (h : s.ph = .openBus) (hd : (pins s).boDone = true) :
    beginEdge s = { quietEdge s with trace := s.trace ++ [.opened s.addr (pins s).boOk] } := by
  simp [beginEdge, observeBus, h, hd, quietEdge_eq, clearDv]

/-- Whatever the phase, the edge around its row changes the pins' fields, `DV` and the trace alone,
and the trace by what the transport completed in this cycle. -/
theorem observeBus_frame (inp : Inputs) (s : State) :
    ∃ events : List BusEvent, observeBus inp s = { s with trace := s.trace ++ events } ∧
      (events ≠ [] → (s.ph = .write ∧ inp.bwDone = true) ∨ (s.ph = .openBus ∧ inp.boDone = true)) := by
  have none : ∃ events : List BusEvent, s = { s with trace := s.trace ++ events } ∧
      (events ≠ [] → (s.ph = .write ∧ inp.bwDone = true) ∨ (s.ph = .openBus ∧ inp.boDone = true)) :=
    ⟨[], by simp, by simp⟩
  unfold observeBus
  cases hp : s.ph with
  | idle => simpa [hp] using none
  | hold => simpa [hp] using none
  | openBus =>
    cases hd : inp.boDone
    · simpa [hp, hd] using none
    · exact ⟨_, rfl, by simp⟩
  | write =>
    cases hd : inp.bwDone
    · simpa [hp, hd] using none
    · exact ⟨_, rfl, by simp⟩

/-- The edge around a row, in one line. -/
theorem beginEdge_frame (s : State) :
    ∃ events : List BusEvent, beginEdge s = { quietEdge s with trace := s.trace ++ events } := by
  obtain ⟨events, h, -⟩ := observeBus_frame (pins s) (consume s)
  exact ⟨events, by simp [beginEdge, h, quietEdge_eq, clearDv]⟩

/-! ## Raise -/

theorem raise_initBusFail (s : State) :
    raise .initBusFail s = { s with errInit := true, dv := true, dc := 1, ph := .idle } := rfl

theorem raise_badSlot (s : State) :
    raise .badSlot s = { s with errSlot := true, dv := true, dc := 2, ph := .idle } := rfl

theorem raise_notInit (s : State) :
    raise .notInit s = { s with errNoinit := true, dv := true, dc := 3, ph := .idle } := rfl

theorem raise_badOp (s : State) :
    raise .badOp s = { s with errOp := true, dv := true, dc := 4, ph := .idle } := rfl

/-! ## Counting, starting, advancing -/

/-- A count that fits the counter is loaded unchanged. -/
theorem loadCount_of_lt {c : Config} {n : Nat} (h : n < 2 ^ c.cntW) : loadCount c n = n :=
  Nat.mod_eq_of_lt h

theorem loadCount_lt (c : Config) (n : Nat) : loadCount c n < 2 ^ c.cntW :=
  Nat.mod_lt _ (Nat.pow_pos (by decide))

/-- The five waits of a valid configuration fit the counter and are not 0, and its control bits are
distinct and in 0..3. -/
theorem valid_facts {c : Config} (h : c.valid = true) :
    (1 ≤ c.nHoldHi ∧ c.nHoldHi < 2 ^ c.cntW) ∧ (1 ≤ c.nHoldLo ∧ c.nHoldLo < 2 ^ c.cntW) ∧
    (1 ≤ c.nPoweron ∧ c.nPoweron < 2 ^ c.cntW) ∧ (1 ≤ c.nInitWait ∧ c.nInitWait < 2 ^ c.cntW) ∧
    (1 ≤ c.nClear ∧ c.nClear < 2 ^ c.cntW) ∧ c.bitsOk = true := by
  simp only [Config.valid, Config.waitsOk, Config.counterOk, Config.longEnough, Bool.and_eq_true,
    decide_eq_true_eq] at h
  obtain ⟨⟨⟨-, hw⟩, hc⟩, hb⟩ := h
  refine ⟨?_, ?_, ?_, ?_, ?_, hb⟩ <;> omega

/-- Everything `advance` can do: end the job, start the next step, or, past the job's end, fault. -/
theorem advance_cases (s : State) :
    (s.stepIx.toNat + 1 = s.job.length ∧ advance s = .next (endJob s)) ∨
    (∃ st, s.stepIx.toNat + 1 ≠ s.job.length ∧ s.job[s.stepIx.toNat + 1]? = some st ∧
      advance s = .next (start st { s with stepIx := s.stepIx + 1 })) ∨
    (s.stepIx.toNat + 1 ≠ s.job.length ∧ s.job[s.stepIx.toNat + 1]? = none ∧
      advance s = .fault .jobOverrun) := by
  unfold advance
  by_cases hl : s.stepIx.toNat + 1 = s.job.length
  · simp [hl]
  · rw [if_neg hl]
    cases hj : s.job[s.stepIx.toNat + 1]? with
    | none => exact .inr (.inr ⟨hl, rfl, rfl⟩)
    | some st => exact .inr (.inl ⟨st, hl, rfl, rfl⟩)

/-- A request that must find `INITIALIZED = 1` does or is rejected. -/
theorem ifInitialized_cases (s t : State) :
    (s.initialized = true ∧ ifInitialized s t = .next t) ∨
    (s.initialized = false ∧ ifInitialized s t = .next (raise .notInit s)) := by
  unfold ifInitialized
  cases s.initialized <;> simp

/-! ## The step -/

theorem step_reset {s : State} (h : (pins s).rst = true) :
    step s = .next (resetEdge (observeBus (pins s) (consume s))) := by
  simp [step, h]

theorem step_accept {s : State} (h : (pins s).rst = false) (hp : s.ph = .idle)
    (hv : (pins s).reqValid = true) :
    step s = exec (decode (pins s).reqWord) { quietEdge s with req := (pins s).reqWord } := by
  simp only [step, h, accepts, hp, hv, beginEdge_quiet (.inl hp), latchReq]
  rfl

theorem step_run {s : State} (h : (pins s).rst = false) (ha : s.ph ≠ .idle ∨ (pins s).reqValid = false) :
    step s = sequencerEdge (pins s) (beginEdge s) := by
  have : accepts (pins s) s = false := by
    rcases ha with ha | ha <;> simp [accepts, ha]
  simp [step, h, this]

/-- What a request can do: take the error of its first failing check; or, INIT, load `ADDR`, clear
`INITIALIZED` and begin INIT's job; or, any other, update its flag and begin a job of a Byte followed
by nothing, by the hold of `N_CLEAR`, or by the eight rows of a glyph. -/
theorem exec_cases (i : Instr) (s : State) :
    (∃ c, c ≠ .initBusFail ∧ exec i s = .next (raise c s)) ∨
    (∃ a, i = .init a ∧ exec i s = .next (beginJob (.busOpen a) (initSteps s.cfg s.id s.sh)
      { s with addr := a, initialized := false })) ∨
    (s.initialized = true ∧ (∀ a, i ≠ .init a) ∧ ∃ v m rest bl id sh,
      exec i s = .next (beginJob (.byte v m) rest { s with bl := bl, id := id, sh := sh }) ∧
      (rest = [] ∨ rest = [.hold s.cfg.nClear] ∨
        (rest.length = 8 ∧ ∀ st ∈ rest, ∃ r, st = .byte r .character))) := by
  cases i with
  | init a => exact .inr (.inl ⟨a, rfl, rfl⟩)
  | reservedE => exact .inl ⟨.badOp, by decide, rfl⟩
  | reservedF => exact .inl ⟨.badOp, by decide, rfl⟩
  | createChar slot r0 r1 r2 r3 r4 r5 r6 r7 =>
    simp only [exec, execCreateChar]
    rcases ifInitialized_cases s (if slotOk slot then _ else raise .badSlot s) with ⟨hi, he⟩ | ⟨-, he⟩
    · by_cases hs : slotOk slot = true
      · rw [he, if_pos hs]
        exact .inr (.inr ⟨hi, by simp, _, _, _, s.bl, s.id, s.sh, rfl, .inr (.inr ⟨rfl, by simp⟩)⟩)
      · rw [he, if_neg hs]
        exact .inl ⟨.badSlot, by decide, rfl⟩
    · exact .inl ⟨.notInit, by decide, he⟩
  | clear =>
    rcases ifInitialized_cases s _ with ⟨hi, he⟩ | ⟨-, he⟩
    · exact .inr (.inr ⟨hi, by simp, _, _, _, s.bl, s.id, s.sh, he, .inr (.inl rfl)⟩)
    · exact .inl ⟨.notInit, by decide, he⟩
  | home =>
    rcases ifInitialized_cases s _ with ⟨hi, he⟩ | ⟨-, he⟩
    · exact .inr (.inr ⟨hi, by simp, _, _, _, s.bl, s.id, s.sh, he, .inr (.inl rfl)⟩)
    · exact .inl ⟨.notInit, by decide, he⟩
  | backlight on =>
    rcases ifInitialized_cases s _ with ⟨hi, he⟩ | ⟨-, he⟩
    · exact .inr (.inr ⟨hi, by simp, _, _, _, on, s.id, s.sh, he, .inl rfl⟩)
    · exact .inl ⟨.notInit, by decide, he⟩
  | entryLeft =>
    rcases ifInitialized_cases s _ with ⟨hi, he⟩ | ⟨-, he⟩
    · exact .inr (.inr ⟨hi, by simp, _, _, _, s.bl, true, s.sh, he, .inl rfl⟩)
    · exact .inl ⟨.notInit, by decide, he⟩
  | entryRight =>
    rcases ifInitialized_cases s _ with ⟨hi, he⟩ | ⟨-, he⟩
    · exact .inr (.inr ⟨hi, by simp, _, _, _, s.bl, false, s.sh, he, .inl rfl⟩)
    · exact .inl ⟨.notInit, by decide, he⟩
  | autoScroll =>
    rcases ifInitialized_cases s _ with ⟨hi, he⟩ | ⟨-, he⟩
    · exact .inr (.inr ⟨hi, by simp, _, _, _, s.bl, s.id, true, he, .inl rfl⟩)
    · exact .inl ⟨.notInit, by decide, he⟩
  | noAutoScroll =>
    rcases ifInitialized_cases s _ with ⟨hi, he⟩ | ⟨-, he⟩
    · exact .inr (.inr ⟨hi, by simp, _, _, _, s.bl, s.id, false, he, .inl rfl⟩)
    · exact .inl ⟨.notInit, by decide, he⟩
  | setCursor line col =>
    rcases ifInitialized_cases s _ with ⟨hi, he⟩ | ⟨-, he⟩
    · exact .inr (.inr ⟨hi, by simp, _, _, _, s.bl, s.id, s.sh, he, .inl rfl⟩)
    · exact .inl ⟨.notInit, by decide, he⟩
  | writeChar b =>
    rcases ifInitialized_cases s _ with ⟨hi, he⟩ | ⟨-, he⟩
    · exact .inr (.inr ⟨hi, by simp, _, _, _, s.bl, s.id, s.sh, he, .inl rfl⟩)
    · exact .inl ⟨.notInit, by decide, he⟩
  | scrollLeft =>
    rcases ifInitialized_cases s _ with ⟨hi, he⟩ | ⟨-, he⟩
    · exact .inr (.inr ⟨hi, by simp, _, _, _, s.bl, s.id, s.sh, he, .inl rfl⟩)
    · exact .inl ⟨.notInit, by decide, he⟩
  | scrollRight =>
    rcases ifInitialized_cases s _ with ⟨hi, he⟩ | ⟨-, he⟩
    · exact .inr (.inr ⟨hi, by simp, _, _, _, s.bl, s.id, s.sh, he, .inl rfl⟩)
    · exact .inl ⟨.notInit, by decide, he⟩
  | sendByte v m =>
    rcases ifInitialized_cases s _ with ⟨hi, he⟩ | ⟨-, he⟩
    · exact .inr (.inr ⟨hi, by simp, _, _, _, s.bl, s.id, s.sh, he, .inl rfl⟩)
    · exact .inl ⟨.notInit, by decide, he⟩

end Sys2Proof.Machine
end

