-- ==== Sys2Proof/Laws/PerInstr.lean ====
section
/-! SUPPORT. The statements made of every instruction as syntax, one lemma per constructor. -/

namespace Sys2Proof.Laws.OpcodeNibble

/-- The word of an instruction has the instruction's operation code in its `OP` field
(30_encoding.md R80, R81). -/
def Statement (i : Instr) : Prop := opOf (encode i) = opcode i

theorem init (addr : DevAddr) : Statement (.init addr) := opOf_wordOf _ _ _ _ _

theorem clear : Statement .clear := opOf_wordOf _ _ _ _ _

theorem home : Statement .home := opOf_wordOf _ _ _ _ _

theorem setCursor (line : BitVec 2) (col : BitVec 7) : Statement (.setCursor line col) :=
  opOf_wordOf _ _ _ _ _

theorem writeChar (c : Byte) : Statement (.writeChar c) := opOf_wordOf _ _ _ _ _

theorem backlight (on : Bool) : Statement (.backlight on) := opOf_wordOf _ _ _ _ _

theorem scrollLeft : Statement .scrollLeft := opOf_wordOf _ _ _ _ _

theorem scrollRight : Statement .scrollRight := opOf_wordOf _ _ _ _ _

theorem entryLeft : Statement .entryLeft := opOf_wordOf _ _ _ _ _

theorem entryRight : Statement .entryRight := opOf_wordOf _ _ _ _ _

theorem autoScroll : Statement .autoScroll := opOf_wordOf _ _ _ _ _

theorem noAutoScroll : Statement .noAutoScroll := opOf_wordOf _ _ _ _ _

theorem createChar (slot r0 r1 r2 r3 r4 r5 r6 r7 : Byte) :
    Statement (.createChar slot r0 r1 r2 r3 r4 r5 r6 r7) :=
  opOf_wordOf _ _ _ _ _

theorem sendByte (v : Byte) (m : Mode) : Statement (.sendByte v m) := opOf_wordOf _ _ _ _ _

theorem reservedE : Statement .reservedE := opOf_wordOf _ _ _ _ _

theorem reservedF : Statement .reservedF := opOf_wordOf _ _ _ _ _

end Sys2Proof.Laws.OpcodeNibble
end

