-- ==== Sys2Proof/Laws/Sequencer.lean ====
section
/-! SUPPORT. What one edge can do: the rows of the phase machine and the three kinds of step, each as one
inversion lemma. -/

namespace Sys2Proof.Machine

/-- The next states of an edge in OPEN. -/
theorem openEdge_cases {inp : Inputs} {s t : State} (h : openEdge inp s = .next t) :
    (inp.boDone = false ∧ t = s) ∨
    (inp.boDone = true ∧ inp.boOk = false ∧ t = raise .initBusFail s) ∨
    (inp.boDone = true ∧ inp.boOk = true ∧ advance s = .next t) := by
  unfold openEdge at h
  cases hd : inp.boDone <;> cases ho : inp.boOk <;> simp [hd, ho] at h
  · exact .inl ⟨rfl, h.symm⟩
  · exact .inl ⟨rfl, h.symm⟩
  · exact .inr (.inl ⟨rfl, rfl, h.symm⟩)
  · exact .inr (.inr ⟨rfl, rfl, h⟩)

/-- The next states of an edge in WRITE. -/
theorem writeEdge_cases {inp : Inputs} {s t : State} (h : writeEdge inp s = .next t) :
    (inp.bwDone = false ∧ t = s) ∨
    (inp.bwDone = true ∧ s.w = .data ∧ t = { s with w := .enHigh }) ∨
    (inp.bwDone = true ∧ s.w = .enHigh ∧ t = enterHold s.cfg.nHoldHi s) ∨
    (inp.bwDone = true ∧ s.w = .enLow ∧ t = enterHold s.cfg.nHoldLo s) := by
  unfold writeEdge at h
  cases hd : inp.bwDone
  · simp [hd] at h
    exact .inl ⟨rfl, h.symm⟩
  · cases hw : s.w <;> simp [hd, hw] at h
    · exact .inr (.inl ⟨rfl, rfl, h.symm⟩)
    · exact .inr (.inr (.inl ⟨rfl, rfl, h.symm⟩))
    · exact .inr (.inr (.inr ⟨rfl, rfl, h.symm⟩))

/-- The next states of an edge in HOLD. -/
theorem holdEdge_cases {s t : State} (h : holdEdge s = .next t) :
    (1 < s.cnt ∧ t = { s with cnt := s.cnt - 1 }) ∨
    (s.cnt = 1 ∧ (∃ n, currentStep s = some (.hold n)) ∧ advance s = .next t) ∨
    (∃ v m, s.cnt = 1 ∧ currentStep s = some (.byte v m) ∧ s.w = .enHigh ∧
      t = { s with ph := .write, w := .enLow }) ∨
    (∃ v m, s.cnt = 1 ∧ currentStep s = some (.byte v m) ∧ s.w = .enLow ∧ s.u = .high ∧
      t = enterWrite .low .data s) ∨
    (∃ v m, s.cnt = 1 ∧ currentStep s = some (.byte v m) ∧ s.w = .enLow ∧ s.u = .low ∧
      advance s = .next t) := by
  unfold holdEdge at h
  split at h
  · cases h
  · rename_i h0
    split at h
    · rename_i h1
      refine .inr ?_
      unfold holdEnd at h
      split at h
      · rename_i n hc
        exact .inl ⟨h1, ⟨n, hc⟩, h⟩
      · rename_i v m hc
        split at h
        · rename_i hw
          cases h
          exact .inr (.inl ⟨v, m, h1, hc, hw, rfl⟩)
        · rename_i hw hu
          cases h
          exact .inr (.inr (.inl ⟨v, m, h1, hc, hw, hu, rfl⟩))
        · rename_i hw hu
          exact .inr (.inr (.inr ⟨v, m, h1, hc, hw, hu, h⟩))
        · cases h
      · cases h
      · cases h
    · cases h
      exact .inl ⟨by omega, rfl⟩

/-- The three kinds of step: a reset; the acceptance of a request; a row of the phase machine. -/
theorem step_cases {s t : State} (h : step s = .next t) :
    ((pins s).rst = true ∧ t = resetEdge (observeBus (pins s) (consume s))) ∨
    ((pins s).rst = false ∧ s.ph = .idle ∧ (pins s).reqValid = true ∧
      exec (decode (pins s).reqWord) { quietEdge s with req := (pins s).reqWord } = .next t) ∨
    ((pins s).rst = false ∧ (s.ph ≠ .idle ∨ (pins s).reqValid = false) ∧
      sequencerEdge (pins s) (beginEdge s) = .next t) := by
  cases hr : (pins s).rst
  · by_cases ha : s.ph = .idle ∧ (pins s).reqValid = true
    · exact .inr (.inl ⟨rfl, ha.1, ha.2, step_accept hr ha.1 ha.2 ▸ h⟩)
    · have hn : s.ph ≠ .idle ∨ (pins s).reqValid = false := by
        by_cases hp : s.ph = .idle
        · exact .inr (by simpa [hp] using ha)
        · exact .inl hp
      exact .inr (.inr ⟨rfl, hn, step_run hr hn ▸ h⟩)
  · rw [step_reset hr] at h
    cases h
    exact .inl ⟨rfl, rfl⟩

end Sys2Proof.Machine
end

