-- ==== Sys2Proof/Laws/Runs.lean ====
section
/-! SUPPORT. Runs of several edges, one edge at a time. -/

namespace Sys2Proof.Machine

theorem runFor_zero (s : State) : runFor 0 s = .next s := rfl

/-- The run of the core, one step off its front. -/
theorem core_run_succ (M : Host.Core) (k : Nat) (s : M.State) :
    M.run (k + 1) s =
      match M.step s with
      | .next t => M.run k t
      | .fault r => .fault r
      | .refused r => .refused r := rfl

/-- A run is its first edge followed by the run of the rest; it stops where an edge stops. -/
theorem runFor_step (k : Nat) (s : State) :
    runFor (k + 1) s =
      match step s with
      | .next t => runFor k t
      | .fault r => .fault r
      | .refused r => .refused r := by
  refine (core_run_succ Sys2Proof.core k s).trans ?_
  cases h : step s <;> (have h' : Sys2Proof.core.step s = _ := h; rw [h']) <;> rfl

theorem runFor_succ {s t : State} (k : Nat) (h : step s = .next t) :
    runFor (k + 1) s = runFor k t := by
  rw [runFor_step, h]

/-- Runs compose. -/
theorem runFor_add {s t : State} (k m : Nat) (h : runFor k s = .next t) :
    runFor (k + m) s = runFor m t := by
  induction k generalizing s with
  | zero => cases h; simp
  | succ k ih =>
    rw [runFor_step] at h
    rw [Nat.add_right_comm, runFor_step]
    cases hs : step s with
    | next r => rw [hs] at h; exact ih h
    | fault r => rw [hs] at h; cases h
    | refused r => rw [hs] at h; cases h

/-- A started step is the current one, and `STEP` has not wrapped. -/
theorem currentStep_start {s : State} {st : JobStep} (hl : s.job.length ≤ 12)
    (hst : s.job[s.stepIx.toNat + 1]? = some st) :
    currentStep (start st { s with stepIx := s.stepIx + 1 }) = some st ∧
      (s.stepIx + 1).toNat = s.stepIx.toNat + 1 := by
  have hlt : s.stepIx.toNat + 1 < s.job.length := by
    obtain ⟨h, -⟩ := List.getElem?_eq_some_iff.mp hst
    exact h
  have hix : (s.stepIx + 1).toNat = s.stepIx.toNat + 1 := by
    rw [BitVec.toNat_add]
    exact Nat.mod_eq_of_lt (by simp; omega)
  have hget : s.job[(s.stepIx + 1).toNat]? = some st := by rw [hix]; exact hst
  exact ⟨by cases st <;> exact hget, hix⟩

end Sys2Proof.Machine
end

