-- ==== Sys2Proof/Tests/Slice0.lean ====
section
/-! SUPPORT. The model's own tests: expected values come from 95_test_vectors.md (the vector's name
stands beside each) or are worked out by hand from the rule cited. Then one witness per statement with
hypotheses: a concrete state and operands that meet them. -/

namespace Sys2Proof.Tests

open Sys2Proof.Machine

/-! ## Helpers -/

/-- The state an outcome goes on with; for a stop, the reset state. -/
def after : Host.Outcome State Fault Refusal → State
  | .next t => t
  | .fault _ => State.reset
  | .refused _ => State.reset

/-- All pins low. -/
def quiet : Inputs := ⟨false, false, 0, false, false, false⟩

/-- A transport that completes every write and opens with success at once. -/
def answering : Inputs := ⟨false, false, 0, true, true, true⟩

/-- A transport whose open fails. -/
def failing : Inputs := ⟨false, false, 0, false, true, false⟩

/-- Reset asserted. -/
def resetting : Inputs := ⟨true, false, 0, false, false, false⟩

/-- The block after a successful INIT at the reference address. -/
def ready : State := { State.reset with addr := 0x27, initialized := true }

/-- A state with the pins of its next edges. -/
def withPins (ins : List Inputs) (s : State) : State := { s with stim := ins }

/-- The block in the middle of a job of one Byte, in WRITE. -/
def writing (u : UnitSel) (w : WriteSel) : State :=
  { ready with ph := .write, req := 0x4104, job := [.byte 0x41 .character], u := u, w := w }

/-- The same byte, in HOLD with a count. -/
def holding (u : UnitSel) (w : WriteSel) (n : Nat) : State := { writing u w with ph := .hold, cnt := n }

/-- The block in the middle of CLEAR's closing hold. -/
def clearing (n : Nat) : State :=
  { ready with
    ph := .hold, req := 0x1, job := [.byte 0x01 .command, .hold 1500], stepIx := 1, cnt := n }

/-- The block in INIT's bus open. -/
def opening : State := { after (exec (.init 0x27) State.reset) with req := 0x2700 }

/-- The block in the last hold of INIT's last byte. -/
def finishingInit : State := { opening with ph := .hold, stepIx := 11, u := .low, w := .enLow, cnt := 1 }

/-- The bytes of the writes among some events. -/
def bytesOf (events : List BusEvent) : List Byte :=
  events.filterMap (fun e => match e with | .write _ b => some b | .opened _ _ => none)

/-- The bytes a request is to send. -/
def bytesSent (i : Instr) (s : State) : List Byte := bytesOf (pending (after (exec i s)))

/-- The status and the diagnostic port after a request word presented to a state. -/
def answer (w : Nat) (s : State) : BitVec 16 × Bool × BitVec 3 :=
  let t := after (step (s.withFetchWord 88 w))
  (status t, diagValid t, diagCode t)


/-- The outcome is a next state. -/
def goesOn : Host.Outcome State Fault Refusal → Bool
  | .next _ => true
  | .fault _ => false
  | .refused _ => false

theorem next_of_goesOn {o : Host.Outcome State Fault Refusal} (h : goesOn o = true) :
    o = .next (after o) := by
  cases o <;> simp [goesOn, after] at h ⊢

/-- A valid configuration with the shortest waits. -/
def tiny : Config :=
  { referenceConfig with
    clkHz := 1, nHoldHi := 1, nHoldLo := 1, nPoweron := 1, nInitWait := 1, nClear := 1, cntW := 1 }

/-! ## Decoding: the words of R80, field by field -/

theorem test_decode_init :
    decode 0x0000000000000000002700 = .init 0x27 := by decide

theorem test_decode_init_ignored_bit :
    decode 0x000000000000000000A700 = .init 0x27 := by decide

theorem test_decode_clear :
    decode 0x0000000000000000000001 = .clear := by decide

theorem test_decode_home :
    decode 0x0000000000000000000002 = .home := by decide

theorem test_decode_setCursor :
    decode 0x0000000000000000130303 = .setCursor 3 19 := by decide

theorem test_decode_setCursor_ignored_bits :
    decode 0x000000000000000083FD03 = .setCursor 1 3 := by decide

theorem test_decode_writeChar :
    decode 0x0000000000000000004104 = .writeChar 0x41 := by decide

theorem test_decode_writeChar_ignored_bits :
    decode 0x0000000000000000FF41F4 = .writeChar 0x41 := by decide

theorem test_decode_backlight :
    decode 0x0000000000000000000015 = .backlight true := by decide

theorem test_decode_backlight_off :
    decode 0x0000000000000000000005 = .backlight false := by decide

theorem test_decode_scrollLeft :
    decode 0x0000000000000000000006 = .scrollLeft := by decide

theorem test_decode_scrollRight :
    decode 0x0000000000000000000007 = .scrollRight := by decide

theorem test_decode_entryLeft :
    decode 0x0000000000000000000008 = .entryLeft := by decide

theorem test_decode_entryRight :
    decode 0x0000000000000000000009 = .entryRight := by decide

theorem test_decode_autoScroll :
    decode 0x000000000000000000000A = .autoScroll := by decide

theorem test_decode_noAutoScroll :
    decode 0x000000000000000000000B = .noAutoScroll := by decide

theorem test_decode_createChar :
    decode 0x0000040E1F1F0A0000020C = .createChar 2 0x00 0x0A 0x1F 0x1F 0x0E 0x04 0x00 0x00 :=
    by decide

theorem test_decode_createChar_rows_in_order :
    decode 0x0807060504030201000A0C = .createChar 0x0A 1 2 3 4 5 6 7 8 := by decide

theorem test_decode_sendByte :
    decode 0x0000000000000000000F0D = .sendByte 0x0F .command := by decide

theorem test_decode_sendByte_character :
    decode 0x000000000000000000411D = .sendByte 0x41 .character := by decide

theorem test_decode_reservedE :
    decode 0x0000000000000000000C0E = .reservedE := by decide

theorem test_decode_reservedF :
    decode 0x000000000000000000000F = .reservedF := by decide

/-! ## Encoding -/

theorem test_encode_createChar :
    encode (.createChar 0x0A 1 2 3 4 5 6 7 8) = 0x0807060504030201000A0C := by decide

theorem test_encode_sendByte :
    encode (.sendByte 0x41 .character) = 0x411D := by decide

theorem test_encode_setCursor :
    encode (.setCursor 3 0x7F) = 0x7F0303 := by decide

theorem test_decodeTableWord_short :
    decodeTableWord 8 0x15 = some (.backlight true) := by decide

theorem test_decodeTableWord_too_long :
    decodeTableWord 96 0x15 = none := by decide

/-! ## WellFormed: an ill-formed term for each check, which the check refuses -/

theorem test_wf_config_frequency :
    Config.valid { referenceConfig with clkHz := 0 } = false := by decide

theorem test_wf_config_zero_hold :
    Config.valid { referenceConfig with clkHz := 1, nHoldHi := 0 } = false := by decide

theorem test_wf_config_holdHi_too_short :
    Config.valid { referenceConfig with nHoldHi := 4 } = false := by decide

theorem test_wf_config_holdLo_too_short :
    Config.valid { referenceConfig with nHoldLo := 79 } = false := by decide

theorem test_wf_config_poweron_too_short :
    Config.valid { referenceConfig with nPoweron := 299999 } = false := by decide

theorem test_wf_config_initWait_too_short :
    Config.valid { referenceConfig with nInitWait := 4999 } = false := by decide

theorem test_wf_config_clear_too_short :
    Config.valid { referenceConfig with nClear := 1499 } = false := by decide

theorem test_wf_config_rounded_wait :
    Config.valid { referenceConfig with clkHz := 1000001 } = false := by decide

theorem test_wf_config_counter_too_narrow :
    Config.valid { referenceConfig with cntW := 18 } = false := by decide

theorem test_wf_config_counter_must_exceed :
    Config.valid { referenceConfig with nPoweron := 524288 } = false := by decide

theorem test_wf_config_rs_bit_range :
    Config.valid { referenceConfig with rsBit := 4 } = false := by decide

theorem test_wf_config_rw_bit_range :
    Config.valid { referenceConfig with rwBit := 4 } = false := by decide

theorem test_wf_config_en_bit_range :
    Config.valid { referenceConfig with enBit := 4 } = false := by decide

theorem test_wf_config_bl_bit_range :
    Config.valid { referenceConfig with blBit := 4 } = false := by decide

theorem test_wf_config_rs_is_rw :
    Config.valid { referenceConfig with rwBit := 0 } = false := by decide

theorem test_wf_config_rs_is_en :
    Config.valid { referenceConfig with enBit := 0 } = false := by decide

theorem test_wf_config_rs_is_bl :
    Config.valid { referenceConfig with blBit := 0 } = false := by decide

theorem test_wf_config_rw_is_en :
    Config.valid { referenceConfig with enBit := 1 } = false := by decide

theorem test_wf_config_rw_is_bl :
    Config.valid { referenceConfig with blBit := 1 } = false := by decide

theorem test_wf_config_en_is_bl :
    Config.valid { referenceConfig with blBit := 2 } = false := by decide

theorem test_wf_wait_at_least_one :
    Config.longEnough 0 5 1000000 0 = false := by decide

theorem test_wf_config_reference :
    referenceConfig.valid = true := by decide

theorem test_wf_config_counter_fits :
    Config.valid { referenceConfig with nPoweron := 524287 } = true := by decide

theorem test_wf_line_init :
    AsmLine.wf (.init 0x80) = false := by decide

theorem test_wf_line_line :
    AsmLine.wf (.setCursor 4 0) = false := by decide

theorem test_wf_line_col :
    AsmLine.wf (.setCursor 0 128) = false := by decide

theorem test_wf_line_char :
    AsmLine.wf (.writeChar 256) = false := by decide

theorem test_wf_line_backlight :
    AsmLine.wf (.backlight 2) = false := by decide

theorem test_wf_line_slot :
    AsmLine.wf (.createChar 256 0 0 0 0 0 0 0 0) = false := by decide

theorem test_wf_line_row :
    AsmLine.wf (.createChar 0 0 0 0 0 0 0 0 256) = false := by decide

theorem test_wf_line_byte :
    AsmLine.wf (.sendByte 256 0) = false := by decide

theorem test_wf_line_mode :
    AsmLine.wf (.sendByte 0 2) = false := by decide

theorem test_wf_line_text :
    AsmLine.wf (.writeText [72, 256]) = false := by decide

theorem test_wf_line_glyph :
    AsmLine.wf (.writeGlyph 8) = false := by decide

theorem test_wf_line_admits :
    [AsmLine.init 0x7F, .setCursor 3 127, .writeChar 255, .backlight 1,
      .createChar 255 0 0 0 0 0 0 0 255, .sendByte 255 1, .writeText [], .writeGlyph 7].all AsmLine.wf = true := by decide

/-! ## Parameters, patterns, encoder -/

/-- E-1, E-3, E-7. -/
theorem test_encoder_E1_E7 :
    [encHi referenceConfig 0x00 .command true, encLo referenceConfig 0x00 .command true,
      encHi referenceConfig 0xFF .character true, encLo referenceConfig 0xFF .character true,
      encHi referenceConfig 0x41 .command true, encLo referenceConfig 0x41 .command true] =
      [0x08, 0x08, 0xF9, 0xF9, 0x48, 0x18] := by decide

/-- E-8, E-11, E-12. -/
theorem test_encoder_E8_E12 :
    [encHi referenceConfig 0x0F .character true, encLo referenceConfig 0x0F .character true,
      encHi referenceConfig 0xC3 .command false, encLo referenceConfig 0xC3 .command false,
      encHi referenceConfig 0x5A .character false, encLo referenceConfig 0x5A .character false] =
      [0x09, 0xF9, 0xC0, 0x30, 0x51, 0xA1] := by decide

/-- O-8 to O-11. -/
theorem test_ddram_wraps :
    [ddramAddr referenceConfig 2 0x6B, ddramAddr referenceConfig 2 0x6C,
      ddramAddr referenceConfig 3 0x7F, ddramAddr referenceConfig 1 0x40] = [0xFF, 0x80, 0xD3, 0x80] := by decide

/-- The slot address bytes of section 2.5. -/
theorem test_cgram_slots :
    [cgramAddr 0, cgramAddr 1, cgramAddr 2, cgramAddr 7] = [0x40, 0x48, 0x50, 0x78] := by decide

/-- The ROM check of section 2.5. -/
theorem test_patterns :
    [fsInit, dcInit, scrollL, scrollR, ems true false, ems false true] =
      [0x28, 0x0C, 0x18, 0x1C, 0x06, 0x05] := by decide

/-! ## One request each: the bytes it is to send, and the flags it leaves -/

/-- I-3. -/
theorem test_init_bytes :
    bytesSent (.init 0x27) { ready with bl := false, id := false, sh := true } =
      [0x00, 0x04, 0x00, 0x30, 0x34, 0x30] ++ [0x00, 0x04, 0x00, 0x30, 0x34, 0x30] ++
      [0x00, 0x04, 0x00, 0x30, 0x34, 0x30] ++ [0x00, 0x04, 0x00, 0x20, 0x24, 0x20] ++
      [0x20, 0x24, 0x20, 0x80, 0x84, 0x80] ++ [0x00, 0x04, 0x00, 0xC0, 0xC4, 0xC0] ++
      [0x00, 0x04, 0x00, 0x10, 0x14, 0x10] ++ [0x00, 0x04, 0x00, 0x50, 0x54, 0x50] := by decide

/-- I-1. -/
theorem test_init_status :
    answer 0x2700 State.reset = (0x000E, false, 0) := by decide

/-- O-1. -/
theorem test_clear_bytes :
    bytesSent (.clear) ready =
      [0x08, 0x0C, 0x08, 0x18, 0x1C, 0x18] := by decide

/-- X-10. -/
theorem test_clear_not_init :
    answer 0x1 { State.reset with errInit := true, dc := 1 } = (0x050C, true, 3) := by decide

/-- O-2. -/
theorem test_home_bytes :
    bytesSent (.home) ready =
      [0x08, 0x0C, 0x08, 0x28, 0x2C, 0x28] := by decide

/-- P5. -/
theorem test_home_cycles :
    remainingCycles (after (exec .home ready)) = 1676 := by decide

/-- O-7. -/
theorem test_setCursor_bytes :
    bytesSent (.setCursor 3 19) ready =
      [0xE8, 0xEC, 0xE8, 0x78, 0x7C, 0x78] := by decide

/-- R244. -/
theorem test_setCursor_not_init :
    answer 0x130303 State.reset = (0x040C, true, 3) := by decide

/-- O-13. -/
theorem test_writeChar_bytes :
    bytesSent (.writeChar 0xFF) ready =
      [0xF9, 0xFD, 0xF9, 0xF9, 0xFD, 0xF9] := by decide

/-- X-1. -/
theorem test_writeChar_not_init :
    answer 0x4104 State.reset = (0x040C, true, 3) := by decide

/-- O-14. -/
theorem test_backlight_bytes :
    bytesSent (.backlight false) ready =
      [0x00, 0x04, 0x00, 0x00, 0x04, 0x00] := by decide

/-- X-2. -/
theorem test_backlight_not_init :
    answer 0x5 State.reset = (0x040C, true, 3) := by decide

/-- O-16. -/
theorem test_scrollLeft_bytes :
    bytesSent (.scrollLeft) ready =
      [0x18, 0x1C, 0x18, 0x88, 0x8C, 0x88] := by decide

/-- R29: INITIALIZED, BUSY, BL, ID. -/
theorem test_scrollLeft_status :
    answer 0x6 ready = (0x000F, false, 0) := by decide

/-- O-17. -/
theorem test_scrollRight_bytes :
    bytesSent (.scrollRight) ready =
      [0x18, 0x1C, 0x18, 0xC8, 0xCC, 0xC8] := by decide

/-- R244. -/
theorem test_scrollRight_not_init :
    answer 0x7 State.reset = (0x040C, true, 3) := by decide

/-- L1-3. -/
theorem test_entryLeft_bytes :
    bytesSent (.entryLeft) { ready with id := false } =
      [0x08, 0x0C, 0x08, 0x68, 0x6C, 0x68] := by decide

/-- O-18. -/
theorem test_entryLeft_status :
    answer 0x8 { ready with id := false } = (0x000F, false, 0) := by decide

/-- O-19. -/
theorem test_entryRight_bytes :
    bytesSent (.entryRight) ready =
      [0x08, 0x0C, 0x08, 0x48, 0x4C, 0x48] := by decide

/-- O-19. -/
theorem test_entryRight_status :
    answer 0x9 ready = (0x0007, false, 0) := by decide

/-- O-22. -/
theorem test_autoScroll_bytes :
    bytesSent (.autoScroll) { ready with id := false } =
      [0x08, 0x0C, 0x08, 0x58, 0x5C, 0x58] := by decide

/-- O-20. -/
theorem test_autoScroll_status :
    answer 0xA ready = (0x001F, false, 0) := by decide

/-- P4, its NO_AUTO_SCROLL. -/
theorem test_noAutoScroll_bytes :
    bytesSent (.noAutoScroll) { ready with id := false, sh := true } =
      [0x08, 0x0C, 0x08, 0x48, 0x4C, 0x48] := by decide

/-- O-21. -/
theorem test_noAutoScroll_status :
    answer 0xB { ready with sh := true } = (0x000F, false, 0) := by decide

/-- P3. -/
theorem test_createChar_bytes :
    bytesSent (.createChar 2 0x00 0x0A 0x1F 0x1F 0x0E 0x04 0x00 0x00) ready =
      [0x58, 0x5C, 0x58, 0x08, 0x0C, 0x08] ++ [0x09, 0x0D, 0x09, 0x09, 0x0D, 0x09] ++
      [0x09, 0x0D, 0x09, 0xA9, 0xAD, 0xA9] ++ [0x19, 0x1D, 0x19, 0xF9, 0xFD, 0xF9] ++
      [0x19, 0x1D, 0x19, 0xF9, 0xFD, 0xF9] ++ [0x09, 0x0D, 0x09, 0xE9, 0xED, 0xE9] ++
      [0x09, 0x0D, 0x09, 0x49, 0x4D, 0x49] ++ [0x09, 0x0D, 0x09, 0x09, 0x0D, 0x09] ++
      [0x09, 0x0D, 0x09, 0x09, 0x0D, 0x09] := by decide

/-- X-6, X-7, X-3. -/
theorem test_createChar_errors :
    (answer 0x80C ready, answer 0xFF0C ready, answer 0x90C State.reset) =
      ((0x020D, true, 2), (0x020D, true, 2), (0x040C, true, 3)) := by decide

/-- P5. -/
theorem test_sendByte_bytes :
    bytesSent (.sendByte 0x0F .command) ready =
      [0x08, 0x0C, 0x08, 0xF8, 0xFC, 0xF8] := by decide

/-- R276: no hold. -/
theorem test_sendByte_cycles :
    remainingCycles (after (exec (.sendByte 0x01 .command) ready)) = 176 := by decide

/-- X-5. -/
theorem test_reservedE :
    answer 0xC0E State.reset = (0x080C, true, 4) := by decide

/-- X-4, X-12. -/
theorem test_reservedF :
    (answer 0xF State.reset, answer 0xF { ready with errNoinit := true }) =
      ((0x080C, true, 4), (0x0C0D, true, 4)) := by decide

/-! ## The phase machine -/

/-- R122: the address ports show ADDR in every phase. -/
theorem test_ports_idle :
    (bwAddr ready, boAddr ready, bwAddr (clearing 1)) = (0x27, 0x27, 0x27) := by decide

/-- R122 in L2-S1, cycle 3: the formula for W = 1, in HOLD too. -/
theorem test_bwData_hold :
    bwData (holding .high .enHigh 5) = 0x4D := by decide

/-- X-9. -/
theorem test_open_fails :
    status (after (step (withPins [failing] opening))) = 0x010C := by decide

/-- L2-S6. -/
theorem test_open_succeeds :
    (after (step (withPins [answering] opening))).cnt = 300000 := by decide

/-- L2-S1, cycles 1 and 2. -/
theorem test_write_data :
    bwData (after (step (withPins [answering] (writing .high .data)))) = 0x4D := by decide

/-- L2-S1, cycle 3. -/
theorem test_write_enHigh :
    (after (step (withPins [answering] (writing .high .enHigh)))).cnt = 5 := by decide

/-- L2-S1, cycle 97. -/
theorem test_write_enLow :
    (after (step (withPins [answering] (writing .low .enLow)))).cnt = 80 := by decide

/-- L2-S7. -/
theorem test_write_stalls :
    (after (step (withPins [quiet] (writing .high .data)))).trace = [] := by decide

/-- L2-S1, cycles 88 and 89. -/
theorem test_hold_ends_unit :
    bwData (after (step (withPins [quiet] (holding .high .enLow 1)))) = 0x19 := by decide

/-- L2-S1, cycle 177. -/
theorem test_hold_ends_job :
    status (after (step (withPins [quiet] (holding .low .enLow 1)))) = 0x000D := by decide

/-- I-1. -/
theorem test_init_ends :
    status (after (step (withPins [quiet] finishingInit))) = 0x000D := by decide

/-- R-2. -/
theorem test_reset_mid_unit :
    status (after (step (withPins [resetting] (holding .high .enHigh 4)))) = 0x000C := by decide

/-- R-1. -/
theorem test_ready_low_in_reset :
    reqReady (withPins [resetting] State.reset) = false := by decide

/-! ## The assembler: lines of 95_test_vectors.md -/

/-- P3. -/
theorem test_asm_create_char :
    assembleLine referenceConfig "CREATE_CHAR 2, 0x00,0x0A,0x1F,0x1F,0x0E,0x04,0x00,0x00".toList = some [0x0000040E1F1F0A0000020C] := by decide

/-- P5. -/
theorem test_asm_send_byte :
    assembleLine referenceConfig "SEND_BYTE 0x0F, C   ; on".toList = some [0x0F0D] := by decide

/-- P2. -/
theorem test_asm_set_cursor :
    assembleLine referenceConfig "SET_CURSOR 1, 3    ; x".toList = some [0x030103] := by decide

/-- P2. -/
theorem test_asm_write_text :
    assembleLine referenceConfig "WRITE_TEXT \"Hi\"".toList = some [0x4804, 0x6904] := by decide

/-- R94, and the choice of log entry 14. -/
theorem test_asm_semicolon_in_string :
    assembleLine referenceConfig "WRITE_TEXT \"a;b\" ; c".toList = some [0x6104, 0x3B04, 0x6204] := by decide

/-- P2. -/
theorem test_asm_init_default :
    assembleLine referenceConfig "INIT".toList = some [0x2700] := by decide

/-- R93: an operand out of range is an assembly error. -/
theorem test_asm_out_of_range :
    assembleLine referenceConfig "SET_CURSOR 4, 0".toList = none := by decide

/-- R93: no other mnemonic. -/
theorem test_asm_unknown :
    assembleLine referenceConfig "DISPLAY_OFF".toList = none := by decide

/-! ## Witnesses: for every statement with hypotheses, data that meets them -/

/-- The pins of `answering` with a request presented. -/
def asking (w : ReqWord) : Inputs := { presenting w with bwDone := true, boDone := true, boOk := true }

/-- IDLE with a request presented. -/
def idleAsking (w : ReqWord) : State := withPins [asking w] State.reset

/-- IDLE after INIT, with a request presented. -/
def readyAsking (w : ReqWord) : State := withPins [asking w] ready

/-- Both ends of the fields, for each operation. -/
theorem witness_DecodeReadsTableFields :
    ∀ k : Fin 16, (BitVec.ofNat 88 k.val).toNat % 16 = k.val ∧
      (BitVec.ofNat 88 (2 ^ 88 - 16 + k.val)).toNat % 16 = k.val := by decide

theorem witness_IgnoredBitsHaveNoEffect :
    (withPins [] ready).ph = .idle ∧ (asking 0xFF41F4).rst = false ∧
      (asking 0xFF41F4).reqValid = true ∧
      step { ready with stim :=
    [asking 0xFF41F4] } = .next (after (step (readyAsking 0xFF41F4))) :=
    ⟨rfl, rfl, rfl, next_of_goesOn (by decide)⟩

theorem witness_PseudoInstructionsExpand :
    referenceConfig.defaultAddr = 0x27 ∧ (∀ n ∈ [0, 255], n < 256) ∧ (0 < 8 ∧ 7 < 8) ∧ 8 ≤ 8 ∧
      (8 ≤ 15 ∧ 15 ≤ 15) := by decide

theorem witness_AssembledWords :
    (0x7F ≤ 0x7F ∧ 0x7F < 0x80) ∧ (3 ≤ 3 ∧ 127 ≤ 127) ∧ (3 < 4 ∨ 127 < 0) ∧ (3 < 0 ∨ 127 < 128) ∧
      (255 ≤ 255 ∧ 255 < 256) ∧ (1 ≤ 1 ∧ 1 < 2) ∧ (255 < 256 ∨ 1 < 0) ∧ (255 < 0 ∨ 1 < 2) ∧
      (∀ n ∈ [255, 0, 0, 0, 0, 0, 0, 0, 255], n ≤ 255) ∧
        (∃ n ∈ [0, 0, 0, 0, 0, 0, 0, 0, 256], 255 < n) := by decide

theorem witness_UnitLayout :
    tiny.valid = true := by decide

theorem witness_UnitWrites :
    referenceConfig.valid = true := by decide

theorem witness_StepRunsDecodedRequest :
    (idleAsking 0x2700).ph = .idle ∧ (pins (idleAsking 0x2700)).rst = false ∧
      (pins (idleAsking 0x2700)).reqValid = true := by decide

theorem witness_PresentedWordRunsNext :
    (0 ≤ 88 ∧ 8 ≤ 88) ∧ 88 ≤ 88 := by decide

theorem witness_BusyBlockIgnoresRequests :
    (writing .high .data).ph ≠ .idle ∧ opening.ph ≠ .idle ∧ (clearing 1).ph ≠ .idle := by decide

/-- For each operation from 0x1 to 0xD. -/
theorem witness_NotInitRejects :
    (∀ k : Fin 14, k.val ≠ 0 → ((idleAsking (BitVec.ofNat 88 k.val)).ph = .idle ∧
      (pins (idleAsking (BitVec.ofNat 88 k.val))).rst = false ∧
      (pins (idleAsking (BitVec.ofNat 88 k.val))).reqValid = true ∧
      (idleAsking (BitVec.ofNat 88 k.val)).initialized = false ∧
      (pins (idleAsking (BitVec.ofNat 88 k.val))).reqWord.toNat % 16 ∉ [0x0, 0xE, 0xF])) ∧
      opening.ph ≠ .idle := by decide

theorem witness_BadSlotRejects :
    ∀ a ∈ [8, 255], (readyAsking (BitVec.ofNat 88 (0xC + a * 2 ^ 8))).ph = .idle ∧
      (pins (readyAsking (BitVec.ofNat 88 (0xC + a * 2 ^ 8)))).rst = false ∧
      (pins (readyAsking (BitVec.ofNat 88 (0xC + a * 2 ^ 8)))).reqValid = true ∧
      (readyAsking (BitVec.ofNat 88 (0xC + a * 2 ^ 8))).initialized = true ∧
      (pins (readyAsking (BitVec.ofNat 88 (0xC + a * 2 ^ 8)))).reqWord.toNat % 16 = 0xC ∧
      8 ≤ (pins (readyAsking (BitVec.ofNat 88 (0xC + a * 2 ^ 8)))).reqWord.toNat / 2 ^ 8 % 2 ^ 8 := by decide

theorem witness_ReservedOpcodesRaiseBadOp :
    (idleAsking 0xC0E).ph = .idle ∧ (pins (idleAsking 0xC0E)).rst = false ∧
      (pins (idleAsking 0xC0E)).reqValid = true ∧
      14 ≤ (pins (idleAsking 0xC0E)).reqWord.toNat % 16 ∧
        14 ≤ (pins (readyAsking 0xF)).reqWord.toNat % 16 := by decide

theorem witness_OneCauseInPriorityOrder_badOp :
    (idleAsking 0xF).ph = .idle ∧ (pins (idleAsking 0xF)).rst = false ∧
      (pins (idleAsking 0xF)).reqValid = true ∧
      step (idleAsking 0xF) = .next (after (step (idleAsking 0xF))) ∧
        14 ≤ (pins (idleAsking 0xF)).reqWord.toNat % 16 :=
    ⟨rfl, rfl, rfl, next_of_goesOn (by decide), by decide⟩

/-- X-3: a bad slot too, but NOT_INIT comes first. -/
theorem witness_OneCauseInPriorityOrder_notInit :
    (idleAsking 0x90C).ph = .idle ∧ (pins (idleAsking 0x90C)).rst = false ∧
      (pins (idleAsking 0x90C)).reqValid = true ∧
      step (idleAsking 0x90C) = .next (after (step (idleAsking 0x90C))) ∧
        ¬ 14 ≤ (pins (idleAsking 0x90C)).reqWord.toNat % 16 ∧
      (pins (idleAsking 0x90C)).reqWord.toNat % 16 ≠ 0 ∧
        (idleAsking 0x90C).initialized = false :=
    ⟨rfl, rfl, rfl, next_of_goesOn (by decide), by decide, by decide, rfl⟩

theorem witness_OneCauseInPriorityOrder_badSlot :
    (readyAsking 0x80C).ph = .idle ∧ (pins (readyAsking 0x80C)).rst = false ∧
      (pins (readyAsking 0x80C)).reqValid = true ∧
      step (readyAsking 0x80C) = .next (after (step (readyAsking 0x80C))) ∧
        ¬ 14 ≤ (pins (readyAsking 0x80C)).reqWord.toNat % 16 ∧
      (readyAsking 0x80C).initialized = true ∧ (pins (readyAsking 0x80C)).reqWord.toNat % 16 = 12 ∧
      8 ≤ (pins (readyAsking 0x80C)).reqWord.toNat / 2 ^ 8 % 2 ^ 8 :=
    ⟨rfl, rfl, rfl, next_of_goesOn (by decide), by decide, rfl, by decide, by decide⟩

theorem witness_OneCauseInPriorityOrder_none :
    (readyAsking 0x70C).ph = .idle ∧ (pins (readyAsking 0x70C)).rst = false ∧
      (pins (readyAsking 0x70C)).reqValid = true ∧
      step (readyAsking 0x70C) = .next (after (step (readyAsking 0x70C))) ∧
        ¬ 14 ≤ (pins (readyAsking 0x70C)).reqWord.toNat % 16 ∧
      (readyAsking 0x70C).initialized = true ∧
      ¬ 8 ≤ (pins (readyAsking 0x70C)).reqWord.toNat / 2 ^ 8 % 2 ^ 8 :=
    ⟨rfl, rfl, rfl, next_of_goesOn (by decide), by decide, rfl, by decide⟩

theorem witness_OneCauseInPriorityOrder_busFail :
    (pins (withPins [failing] opening)).rst = false ∧
      step (withPins [failing] opening) = .next (after (step (withPins [failing] opening))) ∧
      (after (step (withPins [failing] opening))).dv = true ∧
        (after (step (withPins [failing] opening))).dc = 1 :=
    ⟨rfl, next_of_goesOn (by decide), by decide, by decide⟩

theorem witness_EdgeRaisesAtMostOneCause :
    (pins (withPins [failing] opening)).rst = false ∧
      step (withPins [failing] opening) = .next (after (step (withPins [failing] opening))) :=
    ⟨rfl, next_of_goesOn (by decide)⟩

theorem witness_InitStartsItsJob :
    (0x2700 : ReqWord).toNat % 16 = 0 ∧ (readyAsking 0x2700).ph = .idle ∧
      (pins (readyAsking 0x2700)).rst = false ∧ (pins (readyAsking 0x2700)).reqValid = true ∧
      (pins (readyAsking 0x2700)).reqWord.toNat % 16 = 0 := by decide

theorem witness_ClearStartsItsJob :
    ready.initialized = true ∧ State.reset.initialized = false ∧
      (1 : ReqWord).toNat % 16 = 1 := by decide

theorem witness_HomeStartsItsJob :
    ready.initialized = true ∧ State.reset.initialized = false ∧
      (2 : ReqWord).toNat % 16 = 2 := by decide

theorem witness_WriteCharStartsItsJob :
    ready.initialized = true ∧ State.reset.initialized = false ∧
      (4 : ReqWord).toNat % 16 = 4 := by decide

theorem witness_BacklightStartsItsJob :
    ready.initialized = true ∧ State.reset.initialized = false ∧
      (5 : ReqWord).toNat % 16 = 5 := by decide

theorem witness_ScrollLeftStartsItsJob :
    ready.initialized = true ∧ State.reset.initialized = false ∧
      (6 : ReqWord).toNat % 16 = 6 := by decide

theorem witness_ScrollRightStartsItsJob :
    ready.initialized = true ∧ State.reset.initialized = false ∧
      (7 : ReqWord).toNat % 16 = 7 := by decide

theorem witness_SendByteStartsItsJob :
    ready.initialized = true ∧ State.reset.initialized = false ∧
      (13 : ReqWord).toNat % 16 = 13 := by decide

theorem witness_SetCursorStartsItsJob :
    ready.initialized = true ∧ State.reset.initialized = false ∧ (3 : ReqWord).toNat % 16 = 3 ∧
      (4 ≤ 4 ∨ 128 ≤ 0) ∧ (4 ≤ 0 ∨ 128 ≤ 128) := by decide

theorem witness_EntryDirectionRequests :
    ready.initialized = true ∧ State.reset.initialized = false ∧
      (8 : ReqWord).toNat % 16 = 8 ∧ (9 : ReqWord).toNat % 16 = 9 := by decide

theorem witness_AutoScrollRequests :
    ready.initialized = true ∧ State.reset.initialized = false ∧
      (10 : ReqWord).toNat % 16 = 10 ∧ (11 : ReqWord).toNat % 16 = 11 := by decide

theorem witness_CreateCharStartsItsJob :
    ready.initialized = true ∧ State.reset.initialized = false ∧ (7 : Byte).toNat < 8 ∧
      8 ≤ (8 : Byte).toNat ∧ (12 : ReqWord).toNat % 16 = 12 := by decide

theorem witness_OpenPhaseRows :
    opening.ph = .openBus ∧
      ((pins (withPins [quiet] opening)).rst = false ∧
        (pins (withPins [quiet] opening)).boDone = false) ∧
      ((pins (withPins [answering] opening)).rst = false ∧
        (pins (withPins [answering] opening)).boDone = true ∧
        (pins (withPins [answering] opening)).boOk = true) ∧
      ((pins (withPins [failing] opening)).rst = false ∧
        (pins (withPins [failing] opening)).boDone = true ∧
        (pins (withPins [failing] opening)).boOk = false) := by decide

theorem witness_WritePhaseRows :
    ∀ w ∈ [WriteSel.data, .enHigh, .enLow], ∀ u ∈ [UnitSel.high, .low],
      (writing u w).cfg.valid = true ∧ (writing u w).ph = .write ∧
      (pins (withPins [quiet] (writing u w))).rst = false ∧
      (pins (withPins [quiet] (writing u w))).bwDone = false ∧
      (pins (withPins [answering] (writing u w))).rst = false ∧
      (pins (withPins [answering] (writing u w))).bwDone = true ∧
      currentStep (writing u w) = some (.byte 0x41 .character) := by decide

theorem witness_HoldAndIdleRows :
    ((withPins [answering] ready).ph = .idle ∧ (pins (withPins [answering] ready)).rst = false ∧
        (pins (withPins [answering] ready)).reqValid = false) ∧
      (holding .high .enHigh 2).ph = .hold ∧
        (pins (withPins [quiet] (holding .high .enHigh 2))).rst = false ∧
      1 < (holding .high .enHigh 2).cnt ∧ (holding .high .enHigh 0).cnt = 0 ∧
      ((clearing 1).ph = .hold ∧ (clearing 1).cnt = 1 ∧
        currentStep (clearing 1) = some (.hold 1500)) ∧
      (∀ u ∈ [UnitSel.high, .low], ∀ w ∈ [WriteSel.enHigh, .enLow],
        (holding u w 1).ph = .hold ∧ (holding u w 1).cnt = 1 ∧ (holding u w 1).u = u ∧
        (holding u w 1).w = w ∧
          currentStep (holding u w 1) = some (.byte 0x41 .character)) := by decide

theorem witness_AdvanceStartsNextStep :
    (finishingInit.stepIx.toNat + 1 = finishingInit.job.length ∧ finishingInit.req.toNat % 16 = 0) ∧
      ((clearing 1).stepIx.toNat + 1 = (clearing 1).job.length ∧ (clearing 1).req.toNat % 16 ≠ 0) ∧
      (300000 < 2 ^ opening.cfg.cntW ∧
        opening.job[opening.stepIx.toNat + 1]? = some (.hold 300000)) ∧
      (opening.job[(opening.stepIx + 1).toNat + 1]? = some (.byte 0x03 .command)) ∧
      { opening with job := [.hold 1, .busOpen 0x27] }.job[opening.stepIx.toNat + 1]? = some (.busOpen 0x27) := by decide

theorem witness_HoldLastsItsCount :
    (withPins [quiet, answering] (clearing 3)).ph = .hold ∧
      (withPins [quiet, answering] (clearing 3)).stim = [quiet, answering] ++ [] ∧
      noReset [quiet, answering] = true ∧ [quiet, answering].length = 2 ∧ 2 < (clearing 3).cnt ∧
      (0 < (clearing 1).cnt ∧ ([] : List Inputs).length = 0) := by decide

theorem witness_StalledTransportHangs :
    ((writing .low .enLow).ph = .write ∧
      (withPins [quiet, quiet] (writing .low .enLow)).stim = [quiet, quiet] ++ [] ∧
        stalledWrite [quiet, quiet] = true ∧ stalledWrite [] = true) ∧
      (opening.ph = .openBus ∧ (withPins [quiet] opening).stim = [quiet] ++ [] ∧
        stalledOpen [quiet] = true) ∧
      ((pins (withPins [resetting] opening)).rst = true ∧
        step (withPins [resetting] opening) = .next (after (step (withPins [resetting] opening)))) := ⟨by decide, by decide, rfl, next_of_goesOn (by decide)⟩

theorem witness_ByteStepSendsSixWrites :
    ∃ s : State, s.cfg.valid = true ∧ s.ph = .write ∧ s.u = .high ∧ s.w = .data ∧
      currentStep s = some (.byte 0x41 .character) ∧
      (∀ l ∈ [[answering], [quiet, answering], [answering], [answering], [quiet, quiet, answering],
        [answering]], writeSlot l = true) ∧
      (∀ l ∈ [[quiet], [answering], [quiet], [quiet]], noReset l = true) ∧
      [quiet].length = s.cfg.nHoldHi ∧ [answering].length = s.cfg.nHoldLo ∧
      s.stim = [answering] ++ [quiet, answering] ++ [quiet] ++ [answering] ++ [answering] ++ [answering] ++
        [quiet, quiet, answering] ++ [quiet] ++ [answering] ++ [quiet] ++ [] :=
    ⟨{ writing .high .data with
        cfg := tiny
        stim := [answering] ++ [quiet, answering] ++ [quiet] ++ [answering] ++ [answering] ++ [answering] ++
          [quiet, quiet, answering] ++ [quiet] ++ [answering] ++ [quiet] ++ [] },
      by decide, rfl, rfl, rfl, rfl, by decide, by decide, rfl, rfl, rfl⟩

theorem witness_EdgeConservesTrace :
    ∀ s ∈ [withPins [answering] opening, withPins [failing] opening,
      withPins [answering] (writing .high .data), withPins [quiet] (holding .low .enLow 1),
      withPins [quiet] (clearing 2)],
      inv s = true ∧ s.ph ≠ .idle ∧ (pins s).rst = false ∧ goesOn (step s) = true := by decide

theorem witness_JobRunEmitsItsTrace :
    ∃ s : State, inv s = true ∧ s.stim = [answering] ++ [] ∧ noReset [answering] = true ∧
      [answering].all (fun inp => inp.boOk) = true ∧
      (∀ j, j < [answering].length → ∃ r, runFor j s = .next r ∧ r.ph ≠ .idle) ∧
      runFor [answering].length s = .next (after (runFor 1 s)) ∧
        (after (runFor 1 s)).ph = .idle := by
  refine ⟨withPins [answering] (holding .low .enLow 1), by decide, rfl, by decide, by decide, ?_,
    next_of_goesOn (by decide), by decide⟩
  intro j hj
  have h0 : j = 0 := by simp at hj; omega
  subst h0
  exact ⟨_, rfl, by decide⟩

theorem witness_AcceptanceOwesWholeJob :
    exec .clear ready = .next (after (exec .clear ready)) ∧ (after (exec .clear ready)).ph ≠ .idle ∧
      exec .clear State.reset = .next (after (exec .clear State.reset)) ∧
      (after (exec .clear State.reset)).ph = .idle :=
    ⟨next_of_goesOn (by decide), by decide, next_of_goesOn (by decide), by decide⟩

theorem witness_WritesPerRequest :
    (∀ i ∈ [Instr.init 0x27, .createChar 7 0 0 0 0 0 0 0 0, .createChar 8 0 0 0 0 0 0 0 0, .clear],
      goesOn (exec i ready) = true) ∧
      opening.ph = .openBus ∧ (pins (withPins [failing] opening)).rst = false ∧
      (pins (withPins [failing] opening)).boDone = true ∧
        (pins (withPins [failing] opening)).boOk = false ∧
      goesOn (step (withPins [failing] opening)) = true := by decide

theorem witness_PromptEdgeTakesOneCycle :
    ∀ s ∈ [withPins [answering] opening, withPins [answering] (writing .high .data),
      withPins [answering] (holding .low .enLow 1), withPins [answering] (clearing 2)],
      inv s = true ∧ s.ph ≠ .idle ∧ prompt (pins s) = true := by decide

theorem witness_PromptJobEndsOnTime :
    inv (withPins [answering] (holding .low .enLow 1)) = true ∧
      (withPins [answering] (holding .low .enLow 1)).stim = [answering] ++ [] ∧
      [answering].length = remainingCycles (withPins [answering] (holding .low .enLow 1)) ∧
      [answering].all prompt = true := by decide

theorem witness_ReferenceCycleCounts :
    ∀ i ∈ [Instr.init 0x27, .clear, .home, .createChar 7 0 0 0 0 0 0 0 0, .scrollLeft],
      ready.cfg = referenceConfig ∧ goesOn (exec i ready) = true ∧
        (after (exec i ready)).ph ≠ .idle := by decide

theorem witness_JobKeepsFlags :
    ∀ s ∈ [withPins [answering] opening, withPins [answering] (writing .high .data),
      withPins [answering] (holding .low .enLow 1)],
      s.ph ≠ .idle ∧ (pins s).rst = false ∧ goesOn (step s) = true := by decide

theorem witness_FlagWriters_backlight :
    (pins (readyAsking 0x5)).rst = false ∧ goesOn (step (readyAsking 0x5)) = true ∧
      (after (step (readyAsking 0x5))).bl ≠ (readyAsking 0x5).bl := by decide

theorem witness_FlagWriters_direction :
    (pins (readyAsking 0x9)).rst = false ∧ goesOn (step (readyAsking 0x9)) = true ∧
      (after (step (readyAsking 0x9))).id ≠ (readyAsking 0x9).id := by decide

theorem witness_FlagWriters_shift :
    (pins (readyAsking 0xA)).rst = false ∧ goesOn (step (readyAsking 0xA)) = true ∧
      (after (step (readyAsking 0xA))).sh ≠ (readyAsking 0xA).sh := by decide

theorem witness_FlagWriters_address :
    (pins (readyAsking 0x3F00)).rst = false ∧ goesOn (step (readyAsking 0x3F00)) = true ∧
      (after (step (readyAsking 0x3F00))).addr ≠ (readyAsking 0x3F00).addr := by decide

theorem witness_InitializedWriters :
    ((pins (readyAsking 0x2700)).rst = false ∧ goesOn (step (readyAsking 0x2700)) = true ∧
        (readyAsking 0x2700).initialized = true ∧
          (after (step (readyAsking 0x2700))).initialized = false) ∧
      ((pins (withPins [quiet] finishingInit)).rst = false ∧
        goesOn (step (withPins [quiet] finishingInit)) = true ∧ finishingInit.initialized = false ∧
        (after (step (withPins [quiet] finishingInit))).initialized = true) ∧
      (inv finishingInit = true ∧ finishingInit.ph ≠ .idle ∧
        finishingInit.req.toNat % 16 = 0) := by decide

theorem witness_OutputsDecodeState :
    (writing .high .enHigh).ph = .write ∧
      currentStep (writing .high .enHigh) = some (.byte 0x41 .character) ∧
        inv (writing .high .enHigh) = true ∧
      (pins (withPins [quiet] (writing .high .enHigh))).rst = false ∧
      (pins (withPins [quiet] (writing .high .enHigh))).bwDone = false ∧
      goesOn (step (withPins [quiet] (writing .high .enHigh))) = true := by decide

theorem witness_ResetEdgeGivesResetState :
    (pins (withPins [resetting] (writing .high .data))).rst = true ∧
      (pins (withPins [{ resetting with bwDone := true }] (writing .high .data))).rst = true ∧
      goesOn (step (withPins [{ resetting with bwDone := true }] (writing .high .data))) = true ∧
      (after (step (withPins [{ resetting with bwDone :=
    true }] (writing .high .data)))).trace ≠ [] := by decide

theorem witness_QuietUntilInit :
    State.reset.ph = .idle ∧ State.reset.initialized = false ∧
      (withPins [quiet, asking 0x4104, asking 0xF] State.reset).stim = [quiet, asking 0x4104, asking 0xF] ++ [] ∧
      noInit [quiet, asking 0x4104, asking 0xF] = true := by decide

theorem witness_ResetAddressNeverObserved :
    ∀ s ∈ [idleAsking 0x3F00, idleAsking 0x4104, withPins [resetting] State.reset, withPins [quiet] State.reset],
      s.ph = .idle ∧ s.initialized = false ∧ goesOn (step s) = true := by decide

theorem witness_ResetAddressNeverObserved_init :
    (after (step (idleAsking 0x3F00))).ph ≠ .idle := by decide

theorem witness_StepKeepsInvariant :
    ∀ s ∈ [readyAsking 0x2700, withPins [answering] opening, withPins [answering] (writing .high .data),
      withPins [answering] (holding .low .enLow 1), withPins [quiet] finishingInit,
      withPins [resetting] (clearing 5)], inv s = true ∧ goesOn (step s) = true := by decide

theorem witness_InvariantStepsGoOn :
    inv opening = true ∧ inv (writing .low .enLow) = true ∧ inv (holding .high .enLow 80) = true ∧
      inv (holding .high .enLow 81) = false ∧ inv (clearing 1500) = true ∧
        inv finishingInit = true := by decide

end Sys2Proof.Tests
end

section
/-! SUPPORT. What the shared operations leave unchanged, each said once, and what a whole edge can do
to the registers (40_sequencer.md R111 to R121). -/

namespace Sys2Proof.Machine

/-! ## Frames of the shared operations -/

/-- `start` sets the phase and the registers within a step, nothing else (R112). -/
theorem start_frame (st : JobStep) (s : State) :
    ∃ ph u w cnt, start st s = { s with ph := ph, u := u, w := w, cnt := cnt } := by
  cases st with
  | byte v m => exact ⟨.write, .high, .data, s.cnt, rfl⟩
  | hold n => exact ⟨.hold, s.u, s.w, loadCount s.cfg n, rfl⟩
  | busOpen a => exact ⟨.openBus, s.u, s.w, s.cnt, rfl⟩

/-- `beginJob` sets the job and the registers of the sequencer, nothing else (R112). -/
theorem beginJob_frame (first : JobStep) (rest : List JobStep) (s : State) :
    ∃ ph u w cnt, beginJob first rest s =
      { s with job := first :: rest, stepIx := 0, ph := ph, u := u, w := w, cnt := cnt } :=
  start_frame first { s with job := first :: rest, stepIx := 0 }

/-- `raise` sets sticky bits, the diagnostic port and `PH`, nothing else (60_exceptions.md R240). -/
theorem raise_frame (c : Cause) (s : State) :
    ∃ ei es en eo, raise c s = { s with
      errInit := ei, errSlot := es, errNoinit := en, errOp := eo,
      dv := true, dc := causeCode c, ph := .idle } := by
  cases c with
  | initBusFail => exact ⟨true, s.errSlot, s.errNoinit, s.errOp, rfl⟩
  | badSlot => exact ⟨s.errInit, true, s.errNoinit, s.errOp, rfl⟩
  | notInit => exact ⟨s.errInit, s.errSlot, true, s.errOp, rfl⟩
  | badOp => exact ⟨s.errInit, s.errSlot, s.errNoinit, true, rfl⟩

/-- `advance` that goes on has ended the job or started the next step (R119). -/
theorem advance_next {s t : State} (h : advance s = .next t) :
    (s.stepIx.toNat + 1 = s.job.length ∧ t = endJob s) ∨
    (∃ st, s.job[s.stepIx.toNat + 1]? = some st ∧ t = start st { s with stepIx := s.stepIx + 1 }) := by
  obtain ⟨hl, ha⟩ | ⟨st, -, hst, ha⟩ | ⟨-, -, ha⟩ := advance_cases s <;> rw [ha] at h <;> cases h
  · exact .inl ⟨hl, rfl⟩
  · exact .inr ⟨st, hst, rfl⟩

/-! ## The effect of a row of the phase machine -/

/-- What a row of the phase machine can do to a state: fail the open, end the job, or move on within
it, which touches the registers of the sequencer alone. -/
inductive RowEffect (s : State) : State → Prop where
  /-- INIT_BUS_FAIL is raised (R118). -/
  | busFails : RowEffect s (raise .initBusFail s)
  /-- The last step of the job is over (R120). -/
  | jobEnds (busy : s.ph ≠ .idle) (last : s.stepIx.toNat + 1 = s.job.length) : RowEffect s (endJob s)
  /-- The job goes on, or the block stays in IDLE. -/
  | goesOn (ph : Phase) (stepIx : BitVec 4) (u : UnitSel) (w : WriteSel) (cnt : Nat) :
      RowEffect s { s with ph := ph, stepIx := stepIx, u := u, w := w, cnt := cnt }

theorem advance_effect {s t : State} (hp : s.ph ≠ .idle) (h : advance s = .next t) :
    RowEffect s t := by
  obtain ⟨hl, rfl⟩ | ⟨st, -, rfl⟩ := advance_next h
  · exact .jobEnds hp hl
  · obtain ⟨ph, u, w, cnt, hs⟩ := start_frame st { s with stepIx := s.stepIx + 1 }
    exact hs ▸ .goesOn ph (s.stepIx + 1) u w cnt

/-- Every row of R121 has one of the three effects. -/
theorem sequencerEdge_effect {inp : Inputs} {s t : State} (h : sequencerEdge inp s = .next t) :
    RowEffect s t := by
  unfold sequencerEdge at h
  cases hp : s.ph <;> simp only [hp] at h
  case idle =>
    cases h
    exact .goesOn s.ph s.stepIx s.u s.w s.cnt
  case openBus =>
    obtain ⟨-, rfl⟩ | ⟨-, -, rfl⟩ | ⟨-, -, ha⟩ := openEdge_cases h
    · exact .goesOn t.ph t.stepIx t.u t.w t.cnt
    · exact .busFails
    · exact advance_effect (by simp [hp]) ha
  case write =>
    obtain ⟨-, rfl⟩ | ⟨-, -, rfl⟩ | ⟨-, -, rfl⟩ | ⟨-, -, rfl⟩ := writeEdge_cases h
    · exact .goesOn t.ph t.stepIx t.u t.w t.cnt
    · exact .goesOn s.ph s.stepIx s.u .enHigh s.cnt
    · exact .goesOn .hold s.stepIx s.u s.w (loadCount s.cfg s.cfg.nHoldHi)
    · exact .goesOn .hold s.stepIx s.u s.w (loadCount s.cfg s.cfg.nHoldLo)
  case hold =>
    obtain ⟨-, rfl⟩ | ⟨-, -, ha⟩ | ⟨-, -, -, -, -, rfl⟩ | ⟨-, -, -, -, -, -, rfl⟩ |
      ⟨-, -, -, -, -, -, ha⟩ := holdEdge_cases h
    · exact .goesOn s.ph s.stepIx s.u s.w (s.cnt - 1)
    · exact advance_effect (by simp [hp]) ha
    · exact .goesOn .write s.stepIx s.u .enLow s.cnt
    · exact .goesOn .write s.stepIx .low .data s.cnt
    · exact advance_effect (by simp [hp]) ha

/-- Every edge without a reset accepts a request or is a row of the phase machine, after its pins are
used up, `DV` has fallen and the trace has grown. -/
theorem step_effect {s t : State} (hr : (pins s).rst = false) (h : step s = .next t) :
    (accepts (pins s) s = true ∧
      exec (decode (pins s).reqWord) { quietEdge s with req := (pins s).reqWord } = .next t) ∨
    (∃ events, RowEffect { quietEdge s with trace := events } t) := by
  obtain ⟨hr', -⟩ | ⟨-, hp, hv, he⟩ | ⟨-, -, hs⟩ := step_cases h
  · simp [hr] at hr'
  · exact .inl ⟨by simp [accepts, hp, hv], he⟩
  · obtain ⟨events, hb⟩ := beginEdge_frame s
    exact .inr ⟨s.trace ++ events, sequencerEdge_effect (hb ▸ hs)⟩

theorem accepts_iff (inp : Inputs) (s : State) :
    accepts inp s = true ↔ s.ph = .idle ∧ inp.reqValid = true := by
  simp [accepts]

/-! ## The effect of a request -/

/-- `exec_cases` for a known outcome, with the jobs of the requests left open: an error is taken, INIT
loads `ADDR` and clears `INITIALIZED`, or another request changes the three flags at most. -/
theorem exec_effect {i : Instr} {s t : State} (h : exec i s = .next t) :
    (∃ c, t = raise c s) ∨
    (∃ a first rest, i = .init a ∧ t = beginJob first rest { s with addr := a, initialized := false }) ∨
    (∃ first rest bl id sh, t = beginJob first rest { s with bl := bl, id := id, sh := sh }) := by
  obtain ⟨c, -, he⟩ | ⟨a, hi, he⟩ | ⟨-, -, v, m, rest, bl, id, sh, he, -⟩ := exec_cases i s <;>
    rw [he] at h <;> cases h
  · exact .inl ⟨c, rfl⟩
  · exact .inr (.inl ⟨a, _, _, hi, rfl⟩)
  · exact .inr (.inr ⟨_, _, bl, id, sh, rfl⟩)

/-- The acceptance updates of a request to the flags, `ADDR` and `INITIALIZED` (42_init.md R160,
43_operations.md R183, R186 to R189). -/
def acceptanceUpdates : Instr → State → State
  | .init a, s => setInitialized false { s with addr := a }
  | .backlight on, s => setBl on s
  | .entryLeft, s => setId true s
  | .entryRight, s => setId false s
  | .autoScroll, s => setSh true s
  | .noAutoScroll, s => setSh false s
  | _, s => s

theorem ifInitialized_next {s u t : State} (h : ifInitialized s u = .next t) :
    (s.initialized = true ∧ t = u) ∨ t = raise .notInit s := by
  obtain ⟨hi, he⟩ | ⟨-, he⟩ := ifInitialized_cases s u <;> rw [he] at h <;> cases h
  · exact .inl ⟨hi, rfl⟩
  · exact .inr rfl

/-- A request whose only check is that of NOT_INIT is rejected, or makes its updates and begins its
job. -/
theorem ifInitialized_beginJob {i : Instr} {s t : State} {first : JobStep} {rest : List JobStep}
    (h : ifInitialized s (beginJob first rest (acceptanceUpdates i s)) = .next t) :
    (∃ c, t = raise c s) ∨
    (∃ first rest, ((∀ a, i ≠ .init a) → s.initialized = true) ∧
      t = beginJob first rest (acceptanceUpdates i s)) := by
  obtain ⟨hi, rfl⟩ | rfl := ifInitialized_next h
  · exact .inr ⟨first, rest, fun _ => hi, rfl⟩
  · exact .inl ⟨.notInit, rfl⟩

/-- Every request either takes an error or makes its own updates and begins a job; all but INIT do the
latter only where `INITIALIZED = 1`. -/
theorem exec_updates {i : Instr} {s t : State} (h : exec i s = .next t) :
    (∃ c, t = raise c s) ∨
    (∃ first rest, ((∀ a, i ≠ .init a) → s.initialized = true) ∧
      t = beginJob first rest (acceptanceUpdates i s)) := by
  cases i with
  | init a =>
    cases h
    exact .inr ⟨_, _, fun hn => absurd rfl (hn a), rfl⟩
  | reservedE => cases h; exact .inl ⟨.badOp, rfl⟩
  | reservedF => cases h; exact .inl ⟨.badOp, rfl⟩
  | createChar slot r0 r1 r2 r3 r4 r5 r6 r7 =>
    obtain ⟨hi, rfl⟩ | rfl := ifInitialized_next h
    · cases slotOk slot
      · exact .inl ⟨.badSlot, rfl⟩
      · exact .inr ⟨_, _, fun _ => hi, rfl⟩
    · exact .inl ⟨.notInit, rfl⟩
  | clear => exact ifInitialized_beginJob h
  | home => exact ifInitialized_beginJob h
  | setCursor line col => exact ifInitialized_beginJob h
  | writeChar c => exact ifInitialized_beginJob h
  | backlight on => exact ifInitialized_beginJob h
  | scrollLeft => exact ifInitialized_beginJob h
  | scrollRight => exact ifInitialized_beginJob h
  | entryLeft => exact ifInitialized_beginJob h
  | entryRight => exact ifInitialized_beginJob h
  | autoScroll => exact ifInitialized_beginJob h
  | noAutoScroll => exact ifInitialized_beginJob h
  | sendByte v m => exact ifInitialized_beginJob h

/-- Before an INIT a request other than INIT takes one and the same error in every state. -/
theorem exec_uninitialized (i : Instr) :
    (∃ a, i = .init a) ∨ (∃ c, ∀ s : State, s.initialized = false → exec i s = .next (raise c s)) := by
  have notInit {f : State → State} :
      ∃ c, ∀ s : State, s.initialized = false → ifInitialized s (f s) = .next (raise c s) :=
    ⟨.notInit, fun s hs => by simp [ifInitialized, hs]⟩
  cases i with
  | init a => exact .inl ⟨a, rfl⟩
  | reservedE => exact .inr ⟨.badOp, fun _ _ => rfl⟩
  | reservedF => exact .inr ⟨.badOp, fun _ _ => rfl⟩
  | _ => exact .inr notInit

end Sys2Proof.Machine
end

section
/-! SUPPORT. The operation code of a word and the instruction it decodes to (30_encoding.md R80,
R81). -/

namespace Sys2Proof

theorem opOf_toNat (w : ReqWord) : (opOf w).toNat = w.toNat % 16 := by
  simp [opOf]

theorem opOf_eq_zero_iff (w : ReqWord) : opOf w = 0x0 ↔ w.toNat % 16 = 0 := by
  rw [← opOf_toNat, ← BitVec.toNat_inj]
  rfl

/-- Only the words of operation code 0 decode to INIT. -/
theorem decode_init_iff (w : ReqWord) : (∃ a, decode w = .init a) ↔ opOf w = 0x0 := by
  have h0 : opOf w = 0x0 ↔ (opOf w).toNat = 0 := by rw [← BitVec.toNat_inj]; rfl
  rw [h0]
  unfold decode
  split <;> simp_all

end Sys2Proof
end

section
/-! SUPPORT. The claims about the flags, the address, `INITIALIZED`, the sticky bits and the status
register (10_state.md R22 to R34). -/

namespace Sys2Proof.Machine

/-! ## A job and the flags -/

/-- Settles O48: a row of the phase machine touches the sequencer's registers, `INITIALIZED` and the
diagnostic port alone. -/
theorem jobKeepsFlags : Obligations.JobKeepsFlags := by
  intro s t hp hr h
  obtain ⟨ha, -⟩ | ⟨events, hrow⟩ := step_effect hr h
  · exact absurd ((accepts_iff _ _).1 ha).1 hp
  · cases hrow <;> exact ⟨rfl, rfl, rfl, rfl, rfl, rfl, rfl⟩

/-! ## A request and the flags -/

/-- The updates of a request to the flags and the address are its own. -/
theorem acceptanceUpdates_flags (i : Instr) (s : State) :
    ((acceptanceUpdates i s).bl ≠ s.bl → i = .backlight (acceptanceUpdates i s).bl) ∧
    ((acceptanceUpdates i s).id ≠ s.id →
      i = if (acceptanceUpdates i s).id then .entryLeft else .entryRight) ∧
    ((acceptanceUpdates i s).sh ≠ s.sh →
      i = if (acceptanceUpdates i s).sh then .autoScroll else .noAutoScroll) ∧
    ((acceptanceUpdates i s).addr ≠ s.addr → i = .init (acceptanceUpdates i s).addr) := by
  cases i <;> simp [acceptanceUpdates]

/-- A request changes a flag or the address only to its own value, and a flag only where
`INITIALIZED = 1`. -/
theorem exec_flags {i : Instr} {s t : State} (h : exec i s = .next t) :
    (t.bl ≠ s.bl → s.initialized = true ∧ i = .backlight t.bl) ∧
    (t.id ≠ s.id → s.initialized = true ∧ i = if t.id then .entryLeft else .entryRight) ∧
    (t.sh ≠ s.sh → s.initialized = true ∧ i = if t.sh then .autoScroll else .noAutoScroll) ∧
    (t.addr ≠ s.addr → i = .init t.addr) := by
  obtain ⟨c, rfl⟩ | ⟨first, rest, hi, rfl⟩ := exec_updates h
  · obtain ⟨ei, es, en, eo, hc⟩ := raise_frame c s
    simp [hc]
  · obtain ⟨ph, u, w, cnt, hj⟩ := beginJob_frame first rest (acceptanceUpdates i s)
    obtain ⟨hbl, hid, hsh, haddr⟩ := acceptanceUpdates_flags i s
    rw [hj]
    refine ⟨fun hne => ⟨hi fun a ha => ?_, hbl hne⟩, fun hne => ⟨hi fun a ha => ?_, hid hne⟩,
      fun hne => ⟨hi fun a ha => ?_, hsh hne⟩, haddr⟩ <;> subst ha <;> exact hne rfl

/-- Settles O49: a row of the phase machine changes no flag, and a request only its own. -/
theorem flagWriters : Obligations.FlagWriters := by
  intro s t hr h
  obtain ⟨ha, he⟩ | ⟨events, hrow⟩ := step_effect hr h
  · obtain ⟨hbl, hid, hsh, haddr⟩ := exec_flags he
    exact ⟨fun hne => ⟨ha, hbl hne⟩, fun hne => ⟨ha, hid hne⟩, fun hne => ⟨ha, hsh hne⟩,
      fun hne => ⟨ha, haddr hne⟩⟩
  · cases hrow <;> exact ⟨absurd rfl, absurd rfl, absurd rfl, absurd rfl⟩

/-! ## The causes of an edge -/

/-- `raise` sets the sticky bit of its cause alone and shows its code (60_exceptions.md R240, R241). -/
theorem raise_one_cause (c : Cause) (s : State) :
    (raise c s).dv = true ∧ (raise c s).ph = .idle ∧
      (((raise c s).dc = 1 ∧ (raise c s).errInit = true ∧ (raise c s).errSlot = s.errSlot ∧
          (raise c s).errNoinit = s.errNoinit ∧ (raise c s).errOp = s.errOp) ∨
       ((raise c s).dc = 2 ∧ (raise c s).errInit = s.errInit ∧ (raise c s).errSlot = true ∧
          (raise c s).errNoinit = s.errNoinit ∧ (raise c s).errOp = s.errOp) ∨
       ((raise c s).dc = 3 ∧ (raise c s).errInit = s.errInit ∧ (raise c s).errSlot = s.errSlot ∧
          (raise c s).errNoinit = true ∧ (raise c s).errOp = s.errOp) ∨
       ((raise c s).dc = 4 ∧ (raise c s).errInit = s.errInit ∧ (raise c s).errSlot = s.errSlot ∧
          (raise c s).errNoinit = s.errNoinit ∧ (raise c s).errOp = true)) := by
  cases c with
  | initBusFail => exact ⟨rfl, rfl, .inl ⟨rfl, rfl, rfl, rfl, rfl⟩⟩
  | badSlot => exact ⟨rfl, rfl, .inr (.inl ⟨rfl, rfl, rfl, rfl, rfl⟩)⟩
  | notInit => exact ⟨rfl, rfl, .inr (.inr (.inl ⟨rfl, rfl, rfl, rfl, rfl⟩))⟩
  | badOp => exact ⟨rfl, rfl, .inr (.inr (.inr ⟨rfl, rfl, rfl, rfl, rfl⟩))⟩

/-- Settles O21: `raise` is the only operation of an edge that touches the diagnostic port once `DV`
has fallen, and no edge calls it twice. -/
theorem edgeRaisesAtMostOneCause : Obligations.EdgeRaisesAtMostOneCause := by
  refine ⟨fun s => ⟨rfl, rfl⟩, fun s t hr h => ?_⟩
  obtain ⟨-, he⟩ | ⟨events, hrow⟩ := step_effect hr h
  · obtain ⟨c, rfl⟩ | ⟨a, first, rest, -, rfl⟩ | ⟨first, rest, bl, id, sh, rfl⟩ := exec_effect he
    · exact .inr (raise_one_cause c _)
    all_goals
      obtain ⟨ph, u, w, cnt, hj⟩ := beginJob_frame first rest _
      rw [hj]
      exact .inl ⟨rfl, rfl, rfl, rfl, rfl, rfl⟩
  · cases hrow with
    | busFails => exact .inr (raise_one_cause .initBusFail _)
    | jobEnds => exact .inl ⟨rfl, rfl, rfl, rfl, rfl, rfl⟩
    | goesOn => exact .inl ⟨rfl, rfl, rfl, rfl, rfl, rfl⟩

/-! ## The status register -/

theorem getLsbD_statusBit (bit j : Nat) (flag : Bool) (hj : j < 16) :
    (statusBit bit flag).getLsbD j = (decide (j = bit) && flag) := by
  rw [statusBit, BitVec.getLsbD_shiftLeft, BitVec.getLsbD_setWidth, BitVec.getLsbD_ofBool]
  by_cases h : j = bit
  · subst h
    simp [hj]
  · have hd : j < bit ∨ j - bit ≠ 0 := by omega
    rcases hd with hd | hd <;> simp [h, hd]

/-- A bit of `STATUS` is the flag at its place, and 0 where R29 names none. -/
theorem getLsbD_status (s : State) (j : Nat) (hj : j < 16) :
    (status s).getLsbD j =
      (decide (j = 0) && s.initialized || decide (j = 1) && busy s || decide (j = 2) && s.bl ||
        decide (j = 3) && s.id || decide (j = 4) && s.sh || decide (j = 8) && s.errInit ||
        decide (j = 9) && s.errSlot || decide (j = 10) && s.errNoinit ||
        decide (j = 11) && s.errOp) := by
  simp only [status, BitVec.getLsbD_or, getLsbD_statusBit _ _ _ hj]

/-- The bits 7:5 and 15:12 of `STATUS` read 0 (R29). -/
theorem status_reserved (s : State) (lo len : Nat)
    (h : (5 ≤ lo ∧ lo + len ≤ 8) ∨ (12 ≤ lo ∧ lo + len ≤ 16)) :
    (status s).extractLsb' lo len = 0 := by
  apply BitVec.eq_of_getLsbD_eq
  intro i hi
  have hplace : lo + i ≠ 0 ∧ lo + i ≠ 1 ∧ lo + i ≠ 2 ∧ lo + i ≠ 3 ∧ lo + i ≠ 4 ∧ lo + i ≠ 8 ∧
      lo + i ≠ 9 ∧ lo + i ≠ 10 ∧ lo + i ≠ 11 := by omega
  obtain ⟨h0, h1, h2, h3, h4, h8, h9, h10, h11⟩ := hplace
  rw [BitVec.getLsbD_extractLsb', getLsbD_status s (lo + i) (by omega)]
  simp only [h0, h1, h2, h3, h4, h8, h9, h10, h11]
  simp

theorem status_reset : status State.reset = 0x000C := by decide

/-- Settles O51: each bit of `STATUS` is read off the nine one-bit terms it is composed of. -/
theorem statusFields : Obligations.StatusFields := by
  intro s
  refine ⟨?_, ?_, ?_, ?_, ?_, status_reserved s 5 3 (by decide), ?_, ?_, ?_, ?_,
    status_reserved s 12 4 (by decide), status_reset⟩ <;>
    (rw [getLsbD_status s _ (by decide)]; simp [busy])

/-- Settles O54: the reset state is written out in the model; its ports and `STATUS` are computed. -/
theorem resetStateValues : Obligations.ResetStateValues := by
  unfold Obligations.ResetStateValues
  decide

/-! ## The address before INIT -/

/-- In IDLE before an INIT the outputs other than the two address ports do not depend on `ADDR`, and
the two are meaningless (10_state.md R32, 40_sequencer.md R122). -/
theorem outputs_addr_idle {s : State} (hp : s.ph = .idle) (a : DevAddr) :
    outputs { s with addr := a } = { outputs s with bwAddr := a, boAddr := a } ∧
      (outputs s).bwValid = false ∧ (outputs s).boReq = false :=
  ⟨rfl, by simp [outputs, bwValid, hp], by simp [outputs, boReq, hp]⟩

theorem observeBus_idle {inp : Inputs} {s : State} (hp : s.ph = .idle) : observeBus inp s = s := by
  simp [observeBus, hp]

theorem raise_addr_comm (c : Cause) (s : State) (a : DevAddr) :
    raise c { s with addr := a } = { raise c s with addr := a } := by
  cases c <;> rfl

/-- A request accepted before an INIT overwrites `ADDR`, or is rejected without reading it. -/
theorem exec_addr_uninitialized {i : Instr} {s t : State} (hi : s.initialized = false)
    (h : exec i s = .next t) (a : DevAddr) :
    exec i { s with addr := a } = .next t ∨
      (t.ph = .idle ∧ exec i { s with addr := a } = .next { t with addr := a }) := by
  obtain ⟨b, rfl⟩ | ⟨c, hc⟩ := exec_uninitialized i
  · exact .inl h
  · rw [hc s hi] at h
    cases h
    exact .inr ⟨by cases c <;> rfl, by rw [hc { s with addr := a } hi, raise_addr_comm]⟩

/-- An edge in IDLE before an INIT either forgets `ADDR` or carries it along unread, in IDLE. -/
theorem step_addr_idle {s t : State} (hp : s.ph = .idle) (hi : s.initialized = false)
    (h : step s = .next t) (a : DevAddr) :
    step { s with addr := a } = .next t ∨
      (t.ph = .idle ∧ step { s with addr := a } = .next { t with addr := a }) := by
  have hp' : ({ s with addr := a } : State).ph = .idle := hp
  obtain ⟨hr, rfl⟩ | ⟨hr, -, hv, he⟩ | ⟨hr, hv, hs⟩ := step_cases h
  · left
    rw [step_reset (s := { s with addr := a }) hr, observeBus_idle (s := consume s) hp,
      observeBus_idle (s := consume { s with addr := a }) hp]
    rfl
  · rw [step_accept (s := { s with addr := a }) hr hp hv]
    have hi' : ({ quietEdge s with req := (pins s).reqWord } : State).initialized = false := hi
    exact exec_addr_uninitialized hi' he a
  · right
    rw [step_run (s := { s with addr := a }) hr hv, beginEdge_quiet (.inl hp')]
    rw [beginEdge_quiet (.inl hp)] at hs
    have hq : (quietEdge s).ph = .idle := hp
    have hq' : (quietEdge { s with addr := a }).ph = .idle := hp
    simp only [sequencerEdge, hq] at hs
    cases hs
    simp only [sequencerEdge, hq']
    exact ⟨hp, rfl⟩

/-- Settles O56: before an INIT no row of IDLE reads `ADDR`, and INIT's acceptance overwrites it. -/
theorem resetAddressNeverObserved : Obligations.ResetAddressNeverObserved := by
  intro s t a hp hi h
  obtain ⟨hout, hbw, hbo⟩ := outputs_addr_idle hp a
  have hstep := step_addr_idle hp hi h a
  exact ⟨hout, hbw, hbo, hstep.imp_right And.right,
    fun hbusy => hstep.resolve_right fun hidle => hbusy hidle.1⟩

end Sys2Proof.Machine
end

section
/-! SUPPORT. The invariant of the block: its parts as propositions, what each operation needs to keep
it, and that every edge does (10_state.md R26, R30, 40_sequencer.md R115, 42_init.md R163). -/

namespace Sys2Proof.Machine

/-! ## The parts of the invariant -/

theorem inv_iff (s : State) :
    inv s = true ↔ s.cfg.valid = true ∧ s.cnt < 2 ^ s.cfg.cntW ∧ diagFits s = true ∧
      phaseFits s = true ∧ (s.ph = .idle ∨ jobFits s = true) := by
  simp [inv, and_assoc]

theorem diagFits_iff (s : State) :
    diagFits s = true ↔ s.dc.toNat ≤ 4 ∧ (s.dv = true → s.dc ≠ 0) := by
  cases hd : s.dv <;> simp [diagFits, hd]

theorem jobFits_iff (s : State) :
    jobFits s = true ↔ s.job.length ≤ 12 ∧ (∀ st ∈ s.job, stepFits s st = true) ∧
      s.initialized = decide (opOf s.req ≠ 0x0) := by
  simp [jobFits, and_assoc]

theorem stepFits_hold (s : State) (n : Nat) :
    stepFits s (.hold n) = true ↔ 1 ≤ n ∧ n < 2 ^ s.cfg.cntW := by
  simp [stepFits]

theorem stepFits_busOpen (s : State) (a : DevAddr) :
    stepFits s (.busOpen a) = true ↔ a = s.addr ∧ opOf s.req = 0x0 := by
  simp [stepFits]

theorem phaseFits_idle {s : State} (hp : s.ph = .idle) : phaseFits s = true := by
  simp [phaseFits, hp]

theorem phaseFits_openBus {s : State} {a : DevAddr} (hp : s.ph = .openBus)
    (hc : currentStep s = some (.busOpen a)) : phaseFits s = true := by
  simp [phaseFits, hp, hc]

theorem phaseFits_write_iff {s : State} (hp : s.ph = .write) :
    phaseFits s = true ↔ ∃ v m, currentStep s = some (.byte v m) := by
  unfold phaseFits
  rw [hp]
  rcases currentStep s with _ | ⟨_ | _ | _⟩ <;> simp

theorem phaseFits_hold_iff {s : State} (hp : s.ph = .hold) :
    phaseFits s = true ↔ 1 ≤ s.cnt ∧
      ((∃ n, currentStep s = some (.hold n) ∧ s.cnt ≤ n) ∨
       (∃ v m, currentStep s = some (.byte v m) ∧ s.cnt ≤ holdAfter s.cfg s.w)) := by
  unfold phaseFits
  rw [hp]
  rcases currentStep s with _ | ⟨_ | _ | _⟩ <;> simp

/-- A job in progress, whatever its phase: the parts of the invariant that do not read `PH`. -/
structure JobRuns (s : State) : Prop where
  valid : s.cfg.valid = true
  counter : s.cnt < 2 ^ s.cfg.cntW
  diag : diagFits s = true
  job : jobFits s = true

theorem JobRuns.inv {s : State} (h : JobRuns s) (hp : phaseFits s = true) : inv s = true :=
  (inv_iff s).2 ⟨h.valid, h.counter, h.diag, hp, .inr h.job⟩

theorem JobRuns.of_inv {s : State} (h : Machine.inv s = true) (hb : s.ph ≠ .idle) : JobRuns s := by
  obtain ⟨hv, hc, hd, -, hj⟩ := (inv_iff s).1 h
  exact ⟨hv, hc, hd, hj.resolve_left hb⟩

/-- In IDLE the invariant says nothing of the job. -/
theorem inv_of_idle {s : State} (hp : s.ph = .idle) (hv : s.cfg.valid = true)
    (hc : s.cnt < 2 ^ s.cfg.cntW) (hd : diagFits s = true) : inv s = true :=
  (inv_iff s).2 ⟨hv, hc, hd, phaseFits_idle hp, .inl hp⟩

/-! ## The operations keep the invariant -/

theorem diagFits_quiet {s t : State} (h : diagFits s = true) (hdv : t.dv = false) (hdc : t.dc = s.dc) :
    diagFits t = true := by
  obtain ⟨hle, -⟩ := (diagFits_iff s).1 h
  exact (diagFits_iff t).2 ⟨hdc ▸ hle, by simp [hdv]⟩

theorem inv_beginEdge {s : State} (h : inv s = true) : inv (beginEdge s) = true := by
  obtain ⟨hv, hc, hd, hp, hj⟩ := (inv_iff s).1 h
  obtain ⟨events, hb⟩ := beginEdge_frame s
  rw [hb]
  exact (inv_iff _).2 ⟨hv, hc, diagFits_quiet hd rfl rfl, hp, hj⟩

theorem inv_resetEdge {s : State} (hv : s.cfg.valid = true) : inv (resetEdge s) = true :=
  inv_of_idle rfl hv (Nat.pow_pos (by decide)) rfl

theorem inv_raise (c : Cause) {s : State} (hv : s.cfg.valid = true) (hc : s.cnt < 2 ^ s.cfg.cntW) :
    inv (raise c s) = true := by
  have hcode : (causeCode c).toNat ≤ 4 ∧ causeCode c ≠ 0 := by cases c <;> decide
  obtain ⟨ei, es, en, eo, hr⟩ := raise_frame c s
  rw [hr]
  exact inv_of_idle rfl hv hc ((diagFits_iff _).2 ⟨hcode.1, fun _ => hcode.2⟩)

theorem inv_endJob {s : State} (h : JobRuns s) : inv (endJob s) = true :=
  inv_of_idle rfl h.valid h.counter h.diag

/-- Starting the current step of a job gives a phase that fits it: a hold of the job is loaded in
full. -/
theorem inv_start {s : State} {st : JobStep} (h : JobRuns s) (hcur : currentStep s = some st) :
    inv (start st s) = true := by
  obtain ⟨-, hfits, -⟩ := (jobFits_iff s).1 h.job
  cases st with
  | byte v m =>
    have hr : JobRuns (start (.byte v m) s) := ⟨h.valid, h.counter, h.diag, h.job⟩
    exact hr.inv ((phaseFits_write_iff rfl).2 ⟨v, m, hcur⟩)
  | busOpen a =>
    have hr : JobRuns (start (.busOpen a) s) := ⟨h.valid, h.counter, h.diag, h.job⟩
    exact hr.inv (phaseFits_openBus rfl hcur)
  | hold n =>
    obtain ⟨hpos, hlt⟩ := (stepFits_hold s n).1 (hfits _ (List.mem_of_getElem? hcur))
    have hload : (start (.hold n) s).cnt = n := loadCount_of_lt hlt
    have hr : JobRuns (start (.hold n) s) := ⟨h.valid, loadCount_lt _ _, h.diag, h.job⟩
    exact hr.inv ((phaseFits_hold_iff rfl).2
      ⟨hload.symm ▸ hpos, .inl ⟨n, hcur, hload.le⟩⟩)

theorem inv_advance {s t : State} (h : JobRuns s) (ha : advance s = .next t) : inv t = true := by
  obtain ⟨hlen, -, -⟩ := (jobFits_iff s).1 h.job
  obtain ⟨-, rfl⟩ | ⟨st, hst, rfl⟩ := advance_next ha
  · exact inv_endJob h
  · have hcur : currentStep { s with stepIx := s.stepIx + 1 } = some st := by
      obtain ⟨-, hix⟩ := currentStep_start hlen hst
      rw [currentStep, hix]
      exact hst
    exact inv_start ⟨h.valid, h.counter, h.diag, h.job⟩ hcur

/-- The hold after a write of a Byte step is loaded in full (R116). -/
theorem inv_enterHold {s : State} {v : Byte} {m : Mode} (h : JobRuns s)
    (hcur : currentStep s = some (.byte v m)) (hpos : 1 ≤ holdAfter s.cfg s.w)
    (hlt : holdAfter s.cfg s.w < 2 ^ s.cfg.cntW) :
    inv (enterHold (holdAfter s.cfg s.w) s) = true := by
  have hload : (enterHold (holdAfter s.cfg s.w) s).cnt = holdAfter s.cfg s.w := loadCount_of_lt hlt
  have hr : JobRuns (enterHold (holdAfter s.cfg s.w) s) := ⟨h.valid, loadCount_lt _ _, h.diag, h.job⟩
  exact hr.inv ((phaseFits_hold_iff rfl).2 ⟨hload.symm ▸ hpos, .inr ⟨v, m, hcur, hload.le⟩⟩)

/-! ## The rows of the phase machine keep the invariant -/

theorem inv_openEdge {inp : Inputs} {s t : State} (h : inv s = true) (hp : s.ph = .openBus)
    (he : openEdge inp s = .next t) : inv t = true := by
  have hr : JobRuns s := .of_inv h (by simp [hp])
  obtain ⟨-, rfl⟩ | ⟨-, -, rfl⟩ | ⟨-, -, ha⟩ := openEdge_cases he
  · exact h
  · exact inv_raise _ hr.valid hr.counter
  · exact inv_advance hr ha

theorem inv_writeEdge {inp : Inputs} {s t : State} (h : inv s = true) (hp : s.ph = .write)
    (he : writeEdge inp s = .next t) : inv t = true := by
  have hr : JobRuns s := .of_inv h (by simp [hp])
  obtain ⟨-, -, -, hphase, -⟩ := (inv_iff s).1 h
  obtain ⟨v, m, hcur⟩ := (phaseFits_write_iff hp).1 hphase
  obtain ⟨⟨hhi, hhi'⟩, ⟨hlo, hlo'⟩, -⟩ := valid_facts hr.valid
  obtain ⟨-, rfl⟩ | ⟨-, -, rfl⟩ | ⟨-, hw, rfl⟩ | ⟨-, hw, rfl⟩ := writeEdge_cases he
  · exact h
  · have hr' : JobRuns { s with w := .enHigh } := ⟨hr.valid, hr.counter, hr.diag, hr.job⟩
    exact hr'.inv ((phaseFits_write_iff (s := { s with w := .enHigh }) hp).2 ⟨v, m, hcur⟩)
  · have hn : holdAfter s.cfg s.w = s.cfg.nHoldHi := by rw [hw]; rfl
    exact hn ▸ inv_enterHold hr hcur (hn ▸ hhi) (hn ▸ hhi')
  · have hn : holdAfter s.cfg s.w = s.cfg.nHoldLo := by rw [hw]; rfl
    exact hn ▸ inv_enterHold hr hcur (hn ▸ hlo) (hn ▸ hlo')

theorem inv_countDown {s : State} (h : inv s = true) (hp : s.ph = .hold) (hc : 1 < s.cnt) :
    inv { s with cnt := s.cnt - 1 } = true := by
  have hr : JobRuns s := .of_inv h (by simp [hp])
  obtain ⟨-, -, -, hphase, -⟩ := (inv_iff s).1 h
  obtain ⟨-, hstep⟩ := (phaseFits_hold_iff hp).1 hphase
  have hr' : JobRuns { s with cnt := s.cnt - 1 } :=
    ⟨hr.valid, (Nat.sub_le _ _).trans_lt hr.counter, hr.diag, hr.job⟩
  refine hr'.inv ((phaseFits_hold_iff (s := { s with cnt := s.cnt - 1 }) hp).2
    ⟨Nat.le_sub_of_add_le hc, ?_⟩)
  obtain ⟨n, hcur, hle⟩ | ⟨v, m, hcur, hle⟩ := hstep
  · exact .inl ⟨n, hcur, (Nat.sub_le _ _).trans hle⟩
  · exact .inr ⟨v, m, hcur, (Nat.sub_le _ _).trans hle⟩

theorem inv_holdEdge {s t : State} (h : inv s = true) (hp : s.ph = .hold)
    (he : holdEdge s = .next t) : inv t = true := by
  have hr : JobRuns s := .of_inv h (by simp [hp])
  obtain ⟨hc, rfl⟩ | ⟨-, -, ha⟩ | ⟨v, m, -, hcur, -, rfl⟩ | ⟨v, m, -, hcur, -, -, rfl⟩ |
    ⟨-, -, -, -, -, -, ha⟩ := holdEdge_cases he
  · exact inv_countDown h hp hc
  · exact inv_advance hr ha
  · have hr' : JobRuns { s with ph := .write, w := .enLow } := ⟨hr.valid, hr.counter, hr.diag, hr.job⟩
    exact hr'.inv ((phaseFits_write_iff rfl).2 ⟨v, m, hcur⟩)
  · have hr' : JobRuns (enterWrite .low .data s) := ⟨hr.valid, hr.counter, hr.diag, hr.job⟩
    exact hr'.inv ((phaseFits_write_iff rfl).2 ⟨v, m, hcur⟩)
  · exact inv_advance hr ha

theorem inv_sequencerEdge {inp : Inputs} {s t : State} (h : inv s = true)
    (he : sequencerEdge inp s = .next t) : inv t = true := by
  unfold sequencerEdge at he
  cases hp : s.ph <;> simp only [hp] at he
  case idle => cases he; exact h
  case openBus => exact inv_openEdge h hp he
  case write => exact inv_writeEdge h hp he
  case hold => exact inv_holdEdge h hp he

/-! ## The requests keep the invariant -/

theorem inv_beginJob {s : State} {first : JobStep} {rest : List JobStep} (hv : s.cfg.valid = true)
    (hc : s.cnt < 2 ^ s.cfg.cntW) (hd : diagFits s = true) (hlen : rest.length ≤ 11)
    (hfits : ∀ st ∈ first :: rest, stepFits s st = true)
    (hinit : s.initialized = decide (opOf s.req ≠ 0x0)) :
    inv (beginJob first rest s) = true :=
  inv_start (s := { s with job := first :: rest, stepIx := 0 })
    ⟨hv, hc, hd, (jobFits_iff _).2 ⟨Nat.succ_le_succ hlen, hfits, hinit⟩⟩ rfl

/-- The holds of INIT's job are waits of the configuration, which the counter can count. -/
theorem initSteps_fit {s : State} (hv : s.cfg.valid = true) (id sh : Bool) :
    ∀ st ∈ initSteps s.cfg id sh, stepFits s st = true := by
  obtain ⟨-, -, hpon, hwait, hclr, -⟩ := valid_facts hv
  simp only [initSteps, List.forall_mem_cons, stepFits_hold]
  exact ⟨hpon, rfl, hwait, rfl, rfl, rfl, rfl, rfl, rfl, hclr, rfl, by simp⟩

/-- A request keeps the invariant where the word latched has its operation code: INIT's job begins
with `INITIALIZED = 0`, any other with 1. -/
theorem inv_exec {i : Instr} {s t : State} (h : inv s = true)
    (hop : (∃ a, i = .init a) ↔ opOf s.req = 0x0) (he : exec i s = .next t) : inv t = true := by
  obtain ⟨hv, hc, hd, -, -⟩ := (inv_iff s).1 h
  obtain ⟨-, -, -, -, hclr, -⟩ := valid_facts hv
  obtain ⟨c, -, hx⟩ | ⟨a, rfl, hx⟩ | ⟨hi, hni, v, m, rest, bl, id, sh, hx, hrest⟩ := exec_cases i s <;>
    rw [hx] at he <;> cases he
  · exact inv_raise c hv hc
  · have h0 : opOf s.req = 0x0 := hop.1 ⟨a, rfl⟩
    refine inv_beginJob hv hc hd (by simp [initSteps]) ?_ (by simp [h0])
    rw [List.forall_mem_cons]
    exact ⟨(stepFits_busOpen _ _).2 ⟨rfl, h0⟩,
      initSteps_fit (s := { s with addr := a, initialized := false }) hv s.id s.sh⟩
  · have h0 : opOf s.req ≠ 0x0 := fun h0 => by
      obtain ⟨a, ha⟩ := hop.2 h0
      exact hni a ha
    have hinit : s.initialized = decide (opOf s.req ≠ 0x0) := by
      rw [hi, decide_eq_true h0]
    have hshort : rest.length ≤ 11 := by
      obtain rfl | rfl | ⟨hl, -⟩ := hrest <;> simp [*]
    refine inv_beginJob hv hc hd hshort ?_ hinit
    rw [List.forall_mem_cons]
    refine ⟨rfl, fun st hst => ?_⟩
    obtain rfl | rfl | ⟨-, hrows⟩ := hrest
    · simp at hst
    · obtain rfl := List.mem_singleton.1 hst
      exact (stepFits_hold _ _).2 hclr
    · obtain ⟨r, rfl⟩ := hrows st hst
      rfl

/-- Settles O57, by the three kinds of edge: a reset, the acceptance of a request, a row of the phase
machine. -/
theorem stepKeepsInvariant : Obligations.StepKeepsInvariant := by
  intro s t h hs
  obtain ⟨hv, hc, hd, -, -⟩ := (inv_iff s).1 h
  obtain ⟨-, rfl⟩ | ⟨-, hp, -, he⟩ | ⟨-, -, he⟩ := step_cases hs
  · obtain ⟨events, hb, -⟩ := observeBus_frame (pins s) (consume s)
    exact inv_resetEdge (by rw [hb]; exact hv)
  · have hlatched : inv { quietEdge s with req := (pins s).reqWord } = true :=
      inv_of_idle hp hv hc (diagFits_quiet hd rfl rfl)
    exact inv_exec hlatched (decode_init_iff _) he
  · exact inv_sequencerEdge (inv_beginEdge h) he

/-! ## `INITIALIZED` -/

/-- A request changes `INITIALIZED` only if it is an INIT, which clears it (42_init.md R160). -/
theorem exec_initialized {i : Instr} {s t : State} (h : exec i s = .next t) :
    t.initialized = s.initialized ∨ ((∃ a, i = .init a) ∧ t.initialized = false) := by
  obtain ⟨c, rfl⟩ | ⟨a, first, rest, hi, rfl⟩ | ⟨first, rest, bl, id, sh, rfl⟩ := exec_effect h
  · obtain ⟨ei, es, en, eo, hc⟩ := raise_frame c s
    exact .inl (by rw [hc])
  · obtain ⟨ph, u, w, cnt, hj⟩ := beginJob_frame first rest { s with addr := a, initialized := false }
    exact .inr ⟨⟨a, hi⟩, by rw [hj]⟩
  · obtain ⟨ph, u, w, cnt, hj⟩ := beginJob_frame first rest { s with bl := bl, id := id, sh := sh }
    exact .inl (by rw [hj])

/-- A row changes `INITIALIZED` only if it ends an INIT's job, and sets it then (R120). -/
theorem RowEffect.initialized {s t : State} (h : RowEffect s t) :
    t.initialized = s.initialized ∨
      (t.initialized = true ∧ s.ph ≠ .idle ∧ opOf s.req = 0x0 ∧
        s.stepIx.toNat + 1 = s.job.length ∧ t.ph = .idle) := by
  cases h with
  | busFails => exact .inl rfl
  | goesOn => exact .inl rfl
  | jobEnds hbusy hlast =>
    by_cases hop : opOf s.req = 0x0
    · exact .inr ⟨if_pos hop, hbusy, hop, hlast, rfl⟩
    · exact .inl (if_neg hop)

/-- The two writers of `INITIALIZED` besides a reset. -/
theorem step_initialized {s t : State} (hr : (pins s).rst = false) (h : step s = .next t) :
    t.initialized = s.initialized ∨
    (t.initialized = false ∧ accepts (pins s) s = true ∧ ∃ a, decode (pins s).reqWord = .init a) ∨
    (t.initialized = true ∧ s.ph ≠ .idle ∧ opOf s.req = 0x0 ∧
      s.stepIx.toNat + 1 = s.job.length ∧ t.ph = .idle) := by
  obtain ⟨ha, he⟩ | ⟨events, hrow⟩ := step_effect hr h
  · obtain hsame | ⟨hi, hfalls⟩ := exec_initialized he
    · exact .inl hsame
    · exact .inr (.inl ⟨hfalls, ha, hi⟩)
  · exact hrow.initialized.imp_right .inr

/-- Settles O50: of the requests INIT alone writes `INITIALIZED`, of the rows the one that ends a job,
and the invariant keeps it 0 in between. -/
theorem initializedWriters : Obligations.InitializedWriters := by
  refine ⟨fun s t hr h => ?_, fun s h hb hop => ?_⟩
  · obtain hsame | ⟨hfalls, hinit⟩ | ⟨hrises, hbusy, hop, hlast, hidle⟩ := step_initialized hr h
    · exact ⟨fun h1 h0 => by simp [hsame, h1] at h0, fun h0 h1 => by simp [hsame, h0] at h1⟩
    · exact ⟨fun _ _ => hinit, fun _ h1 => by simp [hfalls] at h1⟩
    · exact ⟨fun _ h0 => by simp [hrises] at h0,
        fun _ _ => ⟨hbusy, (opOf_eq_zero_iff _).1 hop, hlast, hidle⟩⟩
  · obtain ⟨-, -, hinit⟩ := (jobFits_iff s).1 (JobRuns.of_inv h hb).job
    simp [hinit, (opOf_eq_zero_iff _).2 hop]

end Sys2Proof.Machine
end

section
/-! SUPPORT. The claims about the command-set ROM, the composed command patterns and the line-offset
table (20_memory.md R63 to R76), and about the request pins during a job (R62). -/

namespace Sys2Proof.Machine

/-! ## The command-set ROM -/

/-- Settles O8: the entries are the ROM's own definitions. -/
theorem romEntries : Obligations.RomEntries := by
  unfold Obligations.RomEntries
  decide

/-- Settles O10: the table is selected by the number of the line. -/
theorem lineOffsets : Obligations.LineOffsets :=
  ⟨fun _ => ⟨rfl, rfl, rfl, rfl⟩, rfl, rfl, rfl, rfl, by decide⟩

/-! ## The composed patterns -/

/-- A command bit above an operand: the OR of the two is their sum. -/
theorem toNat_commandBit_or {v : Byte} {k : Nat} (hk : k < 8) (hv : v.toNat < 2 ^ k) :
    (BitVec.twoPow 8 k ||| v).toNat = 2 ^ k + v.toNat := by
  rw [BitVec.toNat_or, BitVec.toNat_twoPow_of_lt hk]
  simpa using (Nat.two_pow_add_eq_or_of_lt hv 1).symm

theorem toNat_ems (id sh : Bool) : (ems id sh).toNat = 4 + 2 * id.toNat + sh.toNat := by
  cases id <;> cases sh <;> rfl

theorem toNat_cgramAddr (slot : Byte) : (cgramAddr slot).toNat = 0x40 + 8 * (slot.toNat % 8) := by
  have hrow : ((slot.extractLsb' 0 3).setWidth 8 <<< 3 : Byte).toNat = 8 * (slot.toNat % 8) := by
    simp only [BitVec.toNat_shiftLeft, BitVec.toNat_setWidth, BitVec.extractLsb'_toNat,
      Nat.shiftRight_zero, Nat.shiftLeft_eq]
    omega
  have hlt : 8 * (slot.toNat % 8) < 2 ^ 6 := by omega
  rw [cgramAddr, ← hrow]
  exact toNat_commandBit_or (k := 6) (by decide) (hrow ▸ hlt)

theorem toNat_ddramAddr (c : Config) (line : BitVec 2) (col : BitVec 7) :
    (ddramAddr c line col).toNat = 0x80 + ((lineOffset c line).toNat + col.toNat) % 2 ^ 7 := by
  have hsum : ((ddramSum c line col).setWidth 8 : Byte).toNat =
      ((lineOffset c line).toNat + col.toNat) % 2 ^ 7 := by
    rw [BitVec.toNat_setWidth_of_le (by decide), ddramSum, BitVec.toNat_add]
  rw [ddramAddr, ← hsum]
  exact toNat_commandBit_or (k := 7) (by decide) (hsum ▸ Nat.mod_lt _ (by decide))

/-- Settles O9: a flag's bit, a slot's row or a DDRAM address stands below the bit of its command. -/
theorem composedPatterns : Obligations.ComposedPatterns :=
  ⟨fun id sh => ⟨rfl, toNat_ems id sh⟩, rfl, rfl, rfl, rfl, rfl, rfl, rfl, rfl, rfl, rfl,
    toNat_cgramAddr, toNat_ddramAddr⟩

/-! ## The request pins during a job -/

/-- An edge of a job is a reset or a row of the phase machine, whatever the request pins are. -/
theorem step_busy_script {s : State} (hp : s.ph ≠ .idle) (inp : Inputs) (rest : List Inputs) :
    step { s with stim := inp :: rest } =
      if inp.rst then .next (resetEdge (observeBus inp { s with stim := rest }))
      else sequencerEdge inp (clearDv (observeBus inp { s with stim := rest })) := by
  have haccept : accepts inp { s with stim := inp :: rest } = false := by simp [accepts, hp]
  simp [step, beginEdge, consume, haccept]

/-- Settles O16: only acceptance reads the request pins, and a job in progress rules it out. -/
theorem busyBlockIgnoresRequests : Obligations.BusyBlockIgnoresRequests := by
  intro s inp valid word rest hp
  refine ⟨by simp [reqReady, hp], ?_⟩
  rw [step_busy_script hp, step_busy_script hp]
  rfl

end Sys2Proof.Machine
end

section
/-! SUPPORT. The conservation of the bus trace: what a job has sent followed by what it still has to
send (20_memory.md R59, 40_sequencer.md R125). -/

namespace Sys2Proof.Machine

/-! ## What is still to send, phase by phase -/

/-- The writes of a Byte step from the one that `U` and `W` select: that write, then those after it. -/
theorem byteEvents_drop (c : Config) (a : DevAddr) (bl : Bool) (v : Byte) (m : Mode) (u : UnitSel)
    (w : WriteSel) :
    (byteEvents c a bl v m).drop (writesBefore u w) =
      .write a (writeByte c (unitByte c v m bl u) w) ::
        (byteEvents c a bl v m).drop (writesBefore u w + 1) := by
  cases u <;> cases w <;> rfl

theorem writesBefore_enHigh (u : UnitSel) : writesBefore u .enHigh = writesBefore u .data + 1 := by
  cases u <;> rfl

theorem writesBefore_enLow (u : UnitSel) : writesBefore u .enLow = writesBefore u .enHigh + 1 := by
  cases u <;> rfl

theorem currentPending_openBus {s : State} (hp : s.ph = .openBus) :
    currentPending s = [.opened s.addr true] := by
  simp [currentPending, hp]

theorem currentPending_write {s : State} {v : Byte} {m : Mode} (hp : s.ph = .write)
    (hc : currentStep s = some (.byte v m)) :
    currentPending s = (byteEvents s.cfg s.addr s.bl v m).drop (writesBefore s.u s.w) := by
  simp [currentPending, hp, hc]

theorem currentPending_holdByte {s : State} {v : Byte} {m : Mode} (hp : s.ph = .hold)
    (hc : currentStep s = some (.byte v m)) :
    currentPending s = (byteEvents s.cfg s.addr s.bl v m).drop (writesBefore s.u s.w + 1) := by
  simp [currentPending, hp, hc]

theorem currentPending_holdStep {s : State} {n : Nat} (hp : s.ph = .hold)
    (hc : currentStep s = some (.hold n)) : currentPending s = [] := by
  simp [currentPending, hp, hc]

theorem pending_idle {s : State} (hp : s.ph = .idle) : pending s = [] := by
  simp [pending, hp]

theorem pending_busy {s : State} (hp : s.ph ≠ .idle) :
    pending s = currentPending s ++ jobEvents s.cfg s.addr s.bl (laterSteps s) := by
  simp [pending, hp]

/-- What an edge does around its row changes nothing that is still to send. -/
theorem pending_beginEdge (s : State) : pending (beginEdge s) = pending s := by
  obtain ⟨events, hb⟩ := beginEdge_frame s
  rw [hb]
  rfl

/-! ## Starting and advancing -/

theorem start_ph_ne_idle (st : JobStep) (s : State) : (start st s).ph ≠ .idle := by
  cases st <;> simp [start]

/-- A step just started has all its events still to send; a bus open of the job is at `ADDR`. -/
theorem pending_start {s : State} {st : JobStep} (hfit : stepFits s st = true)
    (hcur : currentStep s = some st) :
    pending (start st s) = jobEvents s.cfg s.addr s.bl (st :: laterSteps s) := by
  have hevents : currentPending (start st s) = stepEvents s.cfg s.addr s.bl st := by
    cases st with
    | byte v m => exact currentPending_write rfl hcur
    | hold n => exact currentPending_holdStep rfl hcur
    | busOpen a =>
      obtain ⟨rfl, -⟩ := (stepFits_busOpen s a).1 hfit
      exact currentPending_openBus rfl
  obtain ⟨ph, u, w, cnt, hs⟩ := start_frame st s
  have hlater : jobEvents (start st s).cfg (start st s).addr (start st s).bl (laterSteps (start st s)) =
      jobEvents s.cfg s.addr s.bl (laterSteps s) := by
    rw [hs]
    rfl
  rw [pending_busy (start_ph_ne_idle st s), hevents, hlater]
  rfl

/-- `advance` leaves the events of the later steps to send, whether it starts the next one or ends the
job after the last (R119, R120). -/
theorem pending_advance {s t : State} (h : JobRuns s) (ha : advance s = .next t) :
    t.trace = s.trace ∧ pending t = jobEvents s.cfg s.addr s.bl (laterSteps s) := by
  obtain ⟨hlen, hfits, -⟩ := (jobFits_iff s).1 h.job
  obtain ⟨hlast, rfl⟩ | ⟨st, hst, rfl⟩ := advance_next ha
  · have hnone : laterSteps s = [] := List.drop_eq_nil_of_le hlast.ge
    exact ⟨rfl, by rw [pending_idle (endJob_ph s), hnone]; rfl⟩
  · obtain ⟨-, hix⟩ := currentStep_start hlen hst
    have hcur : currentStep { s with stepIx := s.stepIx + 1 } = some st := by
      rw [currentStep, hix]
      exact hst
    have hlater : laterSteps s = st :: laterSteps { s with stepIx := s.stepIx + 1 } := by
      simp only [laterSteps, hix]
      obtain ⟨hlt, rfl⟩ := List.getElem?_eq_some_iff.1 hst
      exact List.drop_eq_getElem_cons hlt
    have hfit : stepFits { s with stepIx := s.stepIx + 1 } st = true :=
      hfits st (List.mem_of_getElem? hst)
    obtain ⟨ph, u, w, cnt, hs⟩ := start_frame st { s with stepIx := s.stepIx + 1 }
    exact ⟨by rw [hs], by rw [hlater, pending_start hfit hcur]⟩

/-! ## The rows of the phase machine -/

/-- The row that ends a successful open has the open as the first event to send. -/
theorem pending_opened {s t : State} (h : JobRuns s) (hp : s.ph = .openBus)
    (ha : advance s = .next t) :
    t.trace = s.trace ∧ pending s = .opened s.addr true :: pending t := by
  obtain ⟨htrace, hlater⟩ := pending_advance h ha
  refine ⟨htrace, ?_⟩
  rw [pending_busy (by simp [hp]), currentPending_openBus hp, hlater]
  rfl

/-- The first event to send in WRITE is what the ports show. -/
theorem pending_write {s : State} {v : Byte} {m : Mode} (hp : s.ph = .write)
    (hc : currentStep s = some (.byte v m)) :
    pending s = .write s.addr (bwData s) ::
      ((byteEvents s.cfg s.addr s.bl v m).drop (writesBefore s.u s.w + 1) ++
        jobEvents s.cfg s.addr s.bl (laterSteps s)) := by
  rw [pending_busy (by simp [hp]), currentPending_write hp hc, byteEvents_drop, bwData_byte hc]
  rfl

/-- The hold after a write has the writes after it to send. -/
theorem pending_enterHold {s : State} {v : Byte} {m : Mode} (n : Nat)
    (hc : currentStep s = some (.byte v m)) :
    pending (enterHold n s) = (byteEvents s.cfg s.addr s.bl v m).drop (writesBefore s.u s.w + 1) ++
      jobEvents s.cfg s.addr s.bl (laterSteps s) := by
  rw [pending_busy (by simp), currentPending_holdByte (s := enterHold n s) rfl hc]
  rfl

/-- An edge in WRITE waits, or completes the first event to send (R114, R116, R117). -/
theorem pending_writeEdge {inp : Inputs} {s t : State} {v : Byte} {m : Mode} (hp : s.ph = .write)
    (hc : currentStep s = some (.byte v m)) (he : writeEdge inp s = .next t) :
    (inp.bwDone = false ∧ t = s) ∨
    (inp.bwDone = true ∧ t.trace = s.trace ∧
      pending s = .write s.addr (bwData s) :: pending t) := by
  obtain ⟨hd, rfl⟩ | ⟨hd, hw, rfl⟩ | ⟨hd, -, rfl⟩ | ⟨hd, -, rfl⟩ := writeEdge_cases he
  · exact .inl ⟨hd, rfl⟩
  · refine .inr ⟨hd, rfl, ?_⟩
    rw [pending_write hp hc, pending_busy (s := { s with w := .enHigh }) (by simp [hp]),
      currentPending_write (s := { s with w := .enHigh }) hp hc, hw, writesBefore_enHigh]
    rfl
  · exact .inr ⟨hd, rfl, by rw [pending_write hp hc, pending_enterHold _ hc]⟩
  · exact .inr ⟨hd, rfl, by rw [pending_write hp hc, pending_enterHold _ hc]⟩

/-- An edge in HOLD sends nothing and leaves what is to send as it is (R115). -/
theorem pending_holdEdge {s t : State} (h : JobRuns s) (hp : s.ph = .hold)
    (he : holdEdge s = .next t) : t.trace = s.trace ∧ pending t = pending s := by
  have hbusy : pending s = currentPending s ++ jobEvents s.cfg s.addr s.bl (laterSteps s) :=
    pending_busy (by simp [hp])
  obtain ⟨-, rfl⟩ | ⟨-, ⟨n, hc⟩, ha⟩ | ⟨v, m, -, hc, hw, rfl⟩ | ⟨v, m, -, hc, hw, hu, rfl⟩ |
    ⟨v, m, -, hc, hw, hu, ha⟩ := holdEdge_cases he
  · exact ⟨rfl, rfl⟩
  · obtain ⟨htrace, hlater⟩ := pending_advance h ha
    exact ⟨htrace, by rw [hbusy, currentPending_holdStep hp hc, hlater]; rfl⟩
  · refine ⟨rfl, ?_⟩
    rw [hbusy, currentPending_holdByte hp hc, hw, ← writesBefore_enLow, pending_busy (by simp),
      currentPending_write (s := { s with ph := .write, w := .enLow }) rfl hc]
    rfl
  · refine ⟨rfl, ?_⟩
    rw [hbusy, currentPending_holdByte hp hc, hw, hu, pending_busy (by simp),
      currentPending_write (s := enterWrite .low .data s) rfl hc]
    rfl
  · obtain ⟨htrace, hlater⟩ := pending_advance h ha
    have hnone : (byteEvents s.cfg s.addr s.bl v m).drop (writesBefore .low .enLow + 1) = [] := rfl
    exact ⟨htrace, by rw [hbusy, currentPending_holdByte hp hc, hw, hu, hnone, hlater]; rfl⟩

/-! ## An edge of a job -/

@[simp] theorem beginEdge_ph (s : State) : (beginEdge s).ph = s.ph := by
  obtain ⟨events, hb⟩ := beginEdge_frame s
  rw [hb]
  rfl

/-- An event that moves from the front of what is to send to the end of what has been sent leaves the two
together as they are. -/
theorem trace_append_of_completed {s t : State} {e : BusEvent}
    (htrace : t.trace = s.trace ++ [e]) (hpend : pending s = e :: pending t) :
    t.trace ++ pending t = s.trace ++ pending s := by
  rw [htrace, hpend, List.append_assoc]
  rfl

/-- Settles O41, by the phase: what the transport completes at an edge is the first event to send, and
the row of the phase machine leaves the others to send. -/
theorem edgeConservesTrace : Obligations.EdgeConservesTrace := by
  intro s t h hb hr hs
  have hrun : JobRuns (beginEdge s) := .of_inv (inv_beginEdge h) (by simpa using hb)
  have hpend := pending_beginEdge s
  rw [step_run hr (.inl hb)] at hs
  cases hp : s.ph <;> simp only [sequencerEdge, beginEdge_ph, hp] at hs
  case idle => exact absurd hp hb
  case openBus =>
    obtain ⟨hd, rfl⟩ | ⟨hd, hok, rfl⟩ | ⟨hd, hok, ha⟩ := openEdge_cases hs
    · left
      rw [hpend, beginEdge_waitingOpen hp hd]
      rfl
    · refine .inr ⟨rfl, hd, hok, rfl, ?_, pending_idle rfl⟩
      rw [beginEdge_doneOpen hp hd, hok]
      rfl
    · obtain ⟨htrace, hfirst⟩ := pending_opened hrun (by simpa using hp) ha
      rw [hpend] at hfirst
      rw [beginEdge_doneOpen hp hd, hok] at htrace hfirst
      exact .inl (trace_append_of_completed htrace hfirst)
  case write =>
    have hwrite : (beginEdge s).ph = .write := by simpa using hp
    obtain ⟨-, -, -, hphase, -⟩ := (inv_iff _).1 (inv_beginEdge h)
    obtain ⟨v, m, hc⟩ := (phaseFits_write_iff hwrite).1 hphase
    left
    obtain ⟨hd, rfl⟩ | ⟨hd, htrace, hfirst⟩ := pending_writeEdge hwrite hc hs
    · rw [hpend, beginEdge_waitingWrite hp hd]
      rfl
    · rw [hpend] at hfirst
      rw [beginEdge_doneWrite hp hd] at htrace hfirst
      exact trace_append_of_completed htrace hfirst
  case hold =>
    obtain ⟨htrace, hsame⟩ := pending_holdEdge hrun (by simpa using hp) hs
    left
    rw [htrace, hsame, hpend, beginEdge_quiet (.inr hp)]
    rfl

/-! ## A run of a job -/

/-- A run that goes on has gone on at its first edge. -/
theorem runFor_succ_next {s t : State} {k : Nat} (h : runFor (k + 1) s = .next t) :
    ∃ r, step s = .next r ∧ runFor k r = .next t := by
  rw [runFor_step] at h
  cases hs : step s with
  | next r => rw [hs] at h; exact ⟨r, rfl, h⟩
  | fault r => rw [hs] at h; cases h
  | refused r => rw [hs] at h; cases h

/-- An edge of a job uses up one script entry. -/
theorem step_busy_stim {s t : State} (hb : s.ph ≠ .idle) (hr : (pins s).rst = false)
    (hs : step s = .next t) : t.stim = s.stim.tail := by
  obtain ⟨ha, -⟩ | ⟨events, hrow⟩ := step_effect hr hs
  · exact absurd ((accepts_iff _ _).1 ha).1 hb
  · cases hrow <;> rfl

/-- A run of a job in which no open fails conserves the trace, edge by edge. -/
theorem runFor_conserves_trace {s t : State} {ins rest : List Inputs} (h : inv s = true)
    (hscript : s.stim = ins ++ rest) (hr : noReset ins = true)
    (hok : ins.all (fun inp => inp.boOk) = true)
    (hbusy : ∀ j, j < ins.length → ∃ r, runFor j s = .next r ∧ r.ph ≠ .idle)
    (hrun : runFor ins.length s = .next t) :
    t.trace ++ pending t = s.trace ++ pending s := by
  induction ins generalizing s with
  | nil => cases hrun; rfl
  | cons inp ins ih =>
    obtain ⟨u, hstep, hrun⟩ := runFor_succ_next hrun
    obtain ⟨_, hfirst, hb⟩ := hbusy 0 (Nat.succ_pos _)
    cases hfirst
    obtain ⟨hr0, hr⟩ : inp.rst = false ∧ noReset ins = true := by simpa [noReset] using hr
    obtain ⟨hok0, hok⟩ : inp.boOk = true ∧ ins.all (fun inp => inp.boOk) = true := by
      simpa using hok
    have hpins : pins s = inp := pins_of_script hscript
    have hu : u.trace ++ pending u = s.trace ++ pending s := by
      obtain hu | ⟨-, -, hfail, -⟩ := edgeConservesTrace s u h hb (hpins ▸ hr0) hstep
      · exact hu
      · simp [hpins, hok0] at hfail
    have hscript' : u.stim = ins ++ rest := by
      rw [step_busy_stim hb (hpins ▸ hr0) hstep, hscript]
      rfl
    have hbusy' : ∀ j, j < ins.length → ∃ r, runFor j u = .next r ∧ r.ph ≠ .idle := fun j hj => by
      obtain ⟨r, hj, hb⟩ := hbusy (j + 1) (Nat.succ_lt_succ hj)
      exact ⟨r, runFor_succ j hstep ▸ hj, hb⟩
    exact (ih (stepKeepsInvariant s u h hstep) hscript' hr hok hbusy' hrun).trans hu

/-- Settles O42: the trace is conserved along the run, and in IDLE nothing is left to send. -/
theorem jobRunEmitsItsTrace : Obligations.JobRunEmitsItsTrace := by
  intro s t ins rest h hscript hr hok hbusy hrun
  have hcons := runFor_conserves_trace h hscript hr hok hbusy hrun
  exact ⟨hcons, fun hp => by rw [← hcons, pending_idle hp, List.append_nil]⟩

end Sys2Proof.Machine
end

section
/-! SUPPORT. Request words and numbers: the fields of a word as digits of its number, the number of a
word put together from its fields, and a word under a mask (30_encoding.md R80, R85). -/

namespace Sys2Proof

/-! ## The fields of a word, read from its number -/

theorem aOf_eq_ofNat (w : ReqWord) : aOf w = BitVec.ofNat 8 (w.toNat / 2 ^ 8) := by
  rw [← Nat.shiftRight_eq_div_pow]
  rfl

theorem bOf_eq_ofNat (w : ReqWord) : bOf w = BitVec.ofNat 8 (w.toNat / 2 ^ 16) := by
  rw [← Nat.shiftRight_eq_div_pow]
  rfl

theorem mOf_eq_decide (w : ReqWord) : mOf w = decide (w.toNat / 2 ^ 4 % 2 = 1) := by
  rw [mOf, BitVec.getLsbD, Nat.testBit_eq_decide_div_mod_eq]

theorem rowOf_eq_ofNat (w : ReqWord) (i : Nat) :
    rowOf w i = BitVec.ofNat 8 (w.toNat / 2 ^ (24 + 8 * i)) := by
  have hG : (gOf w).toNat = w.toNat / 2 ^ 24 := by
    rw [gOf, BitVec.extractLsb'_toNat, Nat.shiftRight_eq_div_pow]
    omega
  rw [Nat.pow_add, ← Nat.div_div_eq_div_mul, ← hG, ← Nat.shiftRight_eq_div_pow]
  rfl

theorem modeOfBit_eq_ite (b : Bool) : modeOfBit b = if b = true then .character else .command := by
  cases b <;> rfl

/-! ## The number of a word, from its fields -/

/-- A digit placed above a number: the OR of the two is their sum. -/
theorem toNat_or_digit {n m k a : Nat} {x : BitVec n} {y : BitVec m} (hx : x.toNat = a)
    (ha : a < 2 ^ k) (hn : k + m ≤ n) : (x ||| y.setWidth n <<< k).toNat = a + y.toNat * 2 ^ k := by
  have hfit : y.toNat * 2 ^ k < 2 ^ n :=
    calc y.toNat * 2 ^ k < 2 ^ m * 2 ^ k := Nat.mul_lt_mul_of_pos_right y.isLt (Nat.two_pow_pos k)
      _ = 2 ^ (k + m) := by rw [Nat.add_comm, Nat.pow_add]
      _ ≤ 2 ^ n := Nat.pow_le_pow_right (by decide) hn
  have hdigit : (y.setWidth n <<< k).toNat = y.toNat <<< k := by
    rw [BitVec.toNat_shiftLeft, BitVec.toNat_setWidth_of_le (by omega), Nat.shiftLeft_eq,
      Nat.mod_eq_of_lt hfit]
  rw [BitVec.toNat_or, hdigit, hx, Nat.or_comm, ← Nat.shiftLeft_add_eq_or_of_lt ha, Nat.shiftLeft_eq,
    Nat.add_comm]

theorem toNat_wordOf (op : BitVec 4) (m : Bool) (a b : Byte) (g : BitVec 64) :
    (wordOf op m a b g).toNat =
      op.toNat + m.toNat * 2 ^ 4 + a.toNat * 2 ^ 8 + b.toNat * 2 ^ 16 + g.toNat * 2 ^ 24 := by
  have hop : (op.setWidth 88).toNat = op.toNat := BitVec.toNat_setWidth_of_le (by decide)
  have hm : (BitVec.ofBool m).toNat = m.toNat := by cases m <;> rfl
  have hbit : m.toNat ≤ 1 := m.toNat_le
  rw [wordOf, ← hm]
  refine toNat_or_digit (toNat_or_digit (toNat_or_digit (toNat_or_digit hop ?_ ?_) ?_ ?_) ?_ ?_)
    ?_ ?_ <;> omega

theorem toNat_glyphOf (r0 r1 r2 r3 r4 r5 r6 r7 : Byte) :
    (glyphOf r0 r1 r2 r3 r4 r5 r6 r7).toNat =
      r0.toNat + r1.toNat * 2 ^ 8 + r2.toNat * 2 ^ 16 + r3.toNat * 2 ^ 24 + r4.toNat * 2 ^ 32 +
        r5.toNat * 2 ^ 40 + r6.toNat * 2 ^ 48 + r7.toNat * 2 ^ 56 := by
  have h0 : (r0.setWidth 64).toNat = r0.toNat := BitVec.toNat_setWidth_of_le (by decide)
  refine toNat_or_digit (toNat_or_digit (toNat_or_digit (toNat_or_digit (toNat_or_digit
    (toNat_or_digit (toNat_or_digit h0 ?_ ?_) ?_ ?_) ?_ ?_) ?_ ?_) ?_ ?_) ?_ ?_) ?_ ?_ <;> omega

/-- The eight rows of a word are its field `G` (R85). -/
theorem glyphOf_rowOf (w : ReqWord) :
    glyphOf (rowOf w 0) (rowOf w 1) (rowOf w 2) (rowOf w 3) (rowOf w 4) (rowOf w 5) (rowOf w 6)
      (rowOf w 7) = gOf w := by
  have hrow (i : Nat) : (rowOf w i).toNat = (gOf w).toNat / 2 ^ (8 * i) % 2 ^ 8 := by
    rw [rowOf, BitVec.extractLsb'_toNat, Nat.shiftRight_eq_div_pow]
  apply BitVec.eq_of_toNat_eq
  simp only [toNat_glyphOf, hrow]
  omega

/-! ## A word under a mask -/

/-- A mask that stands at one field leaves that field, masked. -/
theorem and_setWidth_shiftLeft {n m : Nat} (x : BitVec n) (y : BitVec m) (k : Nat) :
    x &&& y.setWidth n <<< k = (x.extractLsb' k m &&& y).setWidth n <<< k := by
  ext i hi
  by_cases hk : i < k
  · simp [hk]
  · have hplace : k + (i - k) = i := by omega
    by_cases hm : i - k < m
    · simp [hk, hplace, hm, hi]
    · simp [hk, hm, BitVec.getLsbD_of_ge y (i - k) (by omega)]

/-- A mask put together from fields masks field by field; `REQ[7:5]` is in none. -/
theorem and_wordOf (w : ReqWord) (op : BitVec 4) (m : Bool) (a b : Byte) (g : BitVec 64) :
    w &&& wordOf op m a b g =
      wordOf (opOf w &&& op) (mOf w && m) (aOf w &&& a) (bOf w &&& b) (gOf w &&& g) := by
  have hop : w &&& op.setWidth 88 = (opOf w &&& op).setWidth 88 := by
    simpa [opOf] using and_setWidth_shiftLeft w op 0
  have hm : w.extractLsb' 4 1 &&& BitVec.ofBool m = BitVec.ofBool (mOf w && m) := by
    ext i hi
    simp [mOf, Nat.lt_one_iff.mp hi]
  simp only [wordOf, BitVec.and_or_distrib_left, and_setWidth_shiftLeft, hop, hm]
  rfl

/-- The low bits of a field, written back into the field. -/
theorem setWidth_extractLsb'_zero {n : Nat} (x : BitVec n) (k : Nat) :
    (x.extractLsb' 0 k).setWidth n = x &&& (BitVec.allOnes k).setWidth n := by
  ext i hi
  simp [hi, Bool.and_comm]

/-- What is left of a word under the mask of its operation, whose `OP` part is always read. -/
theorem and_readMask {w : ReqWord} {op : BitVec 4} {m : Bool} {a b : Byte} {g : BitVec 64}
    (hmask : readMask op = wordOf 0xF m a b g) (h : (opOf w).toNat = op.toNat) :
    w &&& readMask (opOf w) = wordOf op (mOf w && m) (aOf w &&& a) (bOf w &&& b) (gOf w &&& g) := by
  have hF : op &&& 0xF = op := BitVec.and_allOnes
  rw [BitVec.eq_of_toNat_eq h, hmask, and_wordOf, BitVec.eq_of_toNat_eq h, hF]

/-- Of an operation without operands nothing but `OP` is left. -/
theorem and_readMask_opcode {w : ReqWord} {op : BitVec 4} (hmask : readMask op = 0xF)
    (h : (opOf w).toNat = op.toNat) : wordOf op false 0 0 0 = w &&& readMask (opOf w) := by
  have hword : (0xF : ReqWord) = wordOf 0xF false 0 0 0 := by decide
  rw [and_readMask (hmask.trans hword) h]
  simp

theorem opOf_readMask (op : BitVec 4) : opOf (readMask op) = 0xF := by
  revert op
  decide

/-- Clearing the ignored bits leaves `OP` as it is. -/
theorem opOf_and_readMask (w : ReqWord) : opOf (w &&& readMask (opOf w)) = opOf w := by
  have hand : opOf (w &&& readMask (opOf w)) = opOf w &&& opOf (readMask (opOf w)) :=
    BitVec.extractLsb'_and
  rw [hand, opOf_readMask]
  exact BitVec.and_allOnes

end Sys2Proof
end

section
/-! SUPPORT. The claims about the decoder and the encoder (30_encoding.md R80 to R93). -/

namespace Sys2Proof

/-- Settles O1: every field of an assembled word reads back what was put there, and the decoder reads
the fields the encoder fills. -/
theorem decodeOfEncode : Obligations.DecodeOfEncode := by
  intro i
  cases i with
  | init addr => simp [decode, encode, opOf_wordOf, aOf_wordOf, ← BitVec.setWidth_eq_extractLsb']
  | setCursor line col =>
    simp [decode, encode, opOf_wordOf, aOf_wordOf, bOf_wordOf, ← BitVec.setWidth_eq_extractLsb']
  | writeChar c => simp [decode, encode, opOf_wordOf, aOf_wordOf]
  | backlight on => simp [decode, encode, opOf_wordOf, mOf_wordOf]
  | sendByte v m => simp [decode, encode, opOf_wordOf, aOf_wordOf, mOf_wordOf, modeOfBit_modeBit]
  | createChar slot r0 r1 r2 r3 r4 r5 r6 r7 =>
    have hrow (i : Fin 8) := glyphOf_rows r0 r1 r2 r3 r4 r5 r6 r7 i
    simpa [decode, encode, opOf_wordOf, aOf_wordOf, rowOf_wordOf] using
      ⟨hrow 0, hrow 1, hrow 2, hrow 3, hrow 4, hrow 5, hrow 6, hrow 7⟩
  | _ => simp [decode, encode, opOf_wordOf]

/-- Settles O2: the operation is the word's number modulo 16, and each operand a digit of it. -/
theorem decodeReadsTableFields : Obligations.DecodeReadsTableFields := by
  intro w
  refine ⟨?_, ?_, ?_, ?_, ?_, ?_, ?_, ?_, ?_, ?_, ?_, ?_, ?_, ?_, ?_, ?_⟩ <;> intro h <;>
    simp [decode, opOf_toNat, h, aOf_eq_ofNat, bOf_eq_ofNat, mOf_eq_decide, rowOf_eq_ofNat,
      ← BitVec.setWidth_eq_extractLsb', BitVec.setWidth_ofNat_of_le, modeOfBit_eq_ite]

/-- Settles O3: the words are computed. -/
theorem specWordsDecode : Obligations.SpecWordsDecode := by
  unfold Obligations.SpecWordsDecode
  decide

/-- Settles O4, operation by operation: the mask is the word of its fields, and the encoder fills the
fields with what the mask leaves of them. -/
theorem encodeOfDecodeClearsIgnoredBits : Obligations.EncodeOfDecodeClearsIgnoredBits := by
  intro w
  have hlt : (opOf w).toNat < 16 := (opOf w).isLt
  unfold decode
  interval_cases h : (opOf w).toNat
  · have hmask : readMask 0x0 = wordOf 0xF false ((BitVec.allOnes 7).setWidth 8) 0 0 := by decide
    rw [and_readMask hmask h]
    simp [encode, setWidth_extractLsb'_zero]
  · exact and_readMask_opcode rfl h
  · exact and_readMask_opcode rfl h
  · have hmask : readMask 0x3 = wordOf 0xF false ((BitVec.allOnes 2).setWidth 8)
      ((BitVec.allOnes 7).setWidth 8) 0 := by decide
    rw [and_readMask hmask h]
    simp [encode, setWidth_extractLsb'_zero]
  · have hmask : readMask 0x4 = wordOf 0xF false (BitVec.allOnes 8) 0 0 := by decide
    rw [and_readMask hmask h, BitVec.and_allOnes]
    simp [encode]
  · have hmask : readMask 0x5 = wordOf 0xF true 0 0 0 := by decide
    rw [and_readMask hmask h]
    simp [encode]
  · exact and_readMask_opcode rfl h
  · exact and_readMask_opcode rfl h
  · exact and_readMask_opcode rfl h
  · exact and_readMask_opcode rfl h
  · exact and_readMask_opcode rfl h
  · exact and_readMask_opcode rfl h
  · have hmask : readMask 0xC = wordOf 0xF false (BitVec.allOnes 8) 0 (BitVec.allOnes 64) := by decide
    rw [and_readMask hmask h, BitVec.and_allOnes, BitVec.and_allOnes]
    simp [encode, glyphOf_rowOf]
  · have hmask : readMask 0xD = wordOf 0xF true (BitVec.allOnes 8) 0 0 := by decide
    rw [and_readMask hmask h, BitVec.and_allOnes]
    simp [encode, modeBit_modeOfBit]
  · exact and_readMask_opcode rfl h
  · exact and_readMask_opcode rfl h

/-- Clearing the ignored bits of a word leaves the instruction it decodes to. -/
theorem decode_and_readMask (w : ReqWord) : decode (w &&& readMask (opOf w)) = decode w := by
  rw [← encodeOfDecodeClearsIgnoredBits w, decodeOfEncode]

end Sys2Proof
end

section
/-! SUPPORT. The claim about the ignored bits of a request: dispatch works on the decoded word and does
not read `REQ` (30_encoding.md R86, 40_sequencer.md R111, R112). -/

namespace Sys2Proof.Machine

theorem ifInitialized_req {s u t : State} (h : ifInitialized s u = .next t) (r : ReqWord) :
    ifInitialized { s with req := r } { u with req := r } = .next { t with req := r } := by
  obtain ⟨hi, he⟩ | ⟨hi, he⟩ := ifInitialized_cases s u <;> rw [he] at h <;> cases h <;>
    simp [ifInitialized, hi, raise_notInit]

/-- Dispatch carries `REQ` along unread. -/
theorem exec_req {i : Instr} {s t : State} (h : exec i s = .next t) (r : ReqWord) :
    exec i { s with req := r } = .next { t with req := r } := by
  cases i with
  | init a => cases h; rfl
  | reservedE => cases h; rfl
  | reservedF => cases h; rfl
  | createChar slot r0 r1 r2 r3 r4 r5 r6 r7 =>
    simp only [exec, execCreateChar] at h ⊢
    cases hs : slotOk slot <;> rw [hs] at h <;> exact ifInitialized_req h r
  | _ => exact ifInitialized_req h r

/-- `step_accept` for a scripted edge. -/
theorem step_accept_script {s : State} {inp : Inputs} (rest : List Inputs) (hp : s.ph = .idle)
    (hr : inp.rst = false) (hv : inp.reqValid = true) :
    step { s with stim := inp :: rest } =
      exec (decode inp.reqWord) (latchReq inp.reqWord (clearDv { s with stim := rest })) :=
  step_accept (s := { s with stim := inp :: rest }) hr hp hv

/-- Settles O5: the two words decode to one instruction, whose dispatch does not read `REQ`. -/
theorem ignoredBitsHaveNoEffect : Obligations.IgnoredBitsHaveNoEffect := by
  intro s t inp rest hp hr hv h
  refine ⟨?_, rfl, opOf_and_readMask _⟩
  rw [step_accept_script rest hp hr hv] at h
  rw [step_accept_script rest hp, decode_and_readMask]
  · exact exec_req h _
  · exact hr
  · exact hv

end Sys2Proof.Machine
end

section
/-! SUPPORT. The claims about the assembler: the number of each instruction's word, and the lines that
stand for it (30_encoding.md R93, R94). -/

namespace Sys2Proof.Machine

/-! ## The number of an instruction's word -/

theorem toNat_encode_init (addr : DevAddr) : (encode (.init addr)).toNat = addr.toNat * 2 ^ 8 := by
  simp [encode, toNat_wordOf, BitVec.toNat_setWidth_of_le, -BitVec.toNat_setWidth]

theorem toNat_encode_setCursor (line : BitVec 2) (col : BitVec 7) :
    (encode (.setCursor line col)).toNat = 0x3 + line.toNat * 2 ^ 8 + col.toNat * 2 ^ 16 := by
  simp [encode, toNat_wordOf, BitVec.toNat_setWidth_of_le, -BitVec.toNat_setWidth]

theorem toNat_encode_writeChar (c : Byte) : (encode (.writeChar c)).toNat = 0x4 + c.toNat * 2 ^ 8 := by
  simp [encode, toNat_wordOf]

theorem toNat_encode_backlight (on : Bool) :
    (encode (.backlight on)).toNat = 0x5 + on.toNat * 2 ^ 4 := by
  simp [encode, toNat_wordOf]

theorem toNat_encode_sendByte (v : Byte) (m : Mode) :
    (encode (.sendByte v m)).toNat = 0xD + (modeBit m).toNat * 2 ^ 4 + v.toNat * 2 ^ 8 := by
  simp [encode, toNat_wordOf]

theorem toNat_encode_createChar (slot r0 r1 r2 r3 r4 r5 r6 r7 : Byte) :
    (encode (.createChar slot r0 r1 r2 r3 r4 r5 r6 r7)).toNat =
      0xC + slot.toNat * 2 ^ 8 + r0.toNat * 2 ^ 24 + r1.toNat * 2 ^ 32 + r2.toNat * 2 ^ 40 +
        r3.toNat * 2 ^ 48 + r4.toNat * 2 ^ 56 + r5.toNat * 2 ^ 64 + r6.toNat * 2 ^ 72 +
        r7.toNat * 2 ^ 80 := by
  have hop : (0xC : BitVec 4).toNat = 0xC := rfl
  have hb : (0 : Byte).toNat = 0 := rfl
  rw [encode, toNat_wordOf, toNat_glyphOf, hop, hb, Bool.toNat_false]
  omega

/-- A mode or flag operand of 0 or 1 is its bit. -/
theorem toNat_decide_eq_one {n : Nat} (h : n ≤ 1) : (decide (n = 1)).toNat = n := by
  interval_cases n <;> rfl

/-! ## Lines -/

/-- An operand out of its range is an assembly error (R93, R94). -/
theorem expand_of_not_wf (c : Config) {line : AsmLine} (h : ¬ line.wf = true) : expand c line = none :=
  if_neg h

theorem assemble_of_not_wf (c : Config) {line : AsmLine} (h : ¬ line.wf = true) :
    assemble c line = none := by
  rw [assemble, expand_of_not_wf c h]
  rfl

/-- A line that stands for one request assembles to that request's word. -/
theorem assemble_one {c : Config} {line : AsmLine} {i : Instr} {v : Nat}
    (h : expand c line = some [i]) (hv : (encode i).toNat = v) :
    assemble c line = some [BitVec.ofNat 88 v] := by
  rw [assemble, h, ← hv, BitVec.ofNat_toNat, BitVec.setWidth_eq]
  rfl

/-- Settles O6: each pseudo-instruction is well-formed or not by its operand's range, and stands for
the requests the table gives. -/
theorem pseudoInstructionsExpand : Obligations.PseudoInstructionsExpand := by
  intro c hc
  have hdefault : expand c .initDefault = some [.init 0x27] := by
    rw [← hc]
    rfl
  refine ⟨hdefault, hdefault, fun codes hcodes => ?_, rfl, fun i hi => ?_, fun i hi => ?_,
    fun b _ hb => ?_, rfl, rfl⟩
  · exact if_pos (by simpa [AsmLine.wf] using fun n hn => Nat.le_of_lt_succ (hcodes n hn))
  · exact if_pos (decide_eq_true (Nat.le_of_lt_succ hi))
  · exact expand_of_not_wf c fun hwf => Nat.not_le_of_lt hi (of_decide_eq_true hwf)
  · exact if_pos (decide_eq_true (hb.trans (by decide)))

/-- Settles O7: a line in range stands for one request, whose word has the number of its fields; a line
out of range is not well-formed. -/
theorem assembledWords : Obligations.AssembledWords := by
  intro c
  refine ⟨fun a ha => ?_, fun a ha => ?_, fun l k hl hk => ?_, fun l k h => ?_, fun b hb => ?_,
    fun b hb => ?_, fun m hm => ?_, fun m hm => ?_, fun b m hb hm => ?_, fun b m h => ?_,
    fun slot r0 r1 r2 r3 r4 r5 r6 r7 h => ?_, fun slot r0 r1 r2 r3 r4 r5 r6 r7 h => ?_,
    rfl, rfl, rfl, rfl, rfl, rfl, rfl, rfl⟩
  · refine assemble_one (if_pos (decide_eq_true ha)) ?_
    rw [toNat_encode_init, BitVec.toNat_ofNat]
    omega
  · exact assemble_of_not_wf c fun hwf => Nat.not_le_of_lt ha (of_decide_eq_true hwf)
  · refine assemble_one (if_pos (by simp [AsmLine.wf, hl, hk])) ?_
    rw [toNat_encode_setCursor, BitVec.toNat_ofNat, BitVec.toNat_ofNat]
    omega
  · refine assemble_of_not_wf c fun hwf => ?_
    have hrange : l ≤ 3 ∧ k ≤ 127 := by simpa [AsmLine.wf] using hwf
    omega
  · refine assemble_one (if_pos (decide_eq_true hb)) ?_
    rw [toNat_encode_writeChar, BitVec.toNat_ofNat]
    omega
  · exact assemble_of_not_wf c fun hwf => Nat.not_le_of_lt hb (of_decide_eq_true hwf)
  · refine assemble_one (if_pos (decide_eq_true hm)) ?_
    rw [toNat_encode_backlight, toNat_decide_eq_one hm]
  · exact assemble_of_not_wf c fun hwf => Nat.not_le_of_lt hm (of_decide_eq_true hwf)
  · refine assemble_one (if_pos (by simp [AsmLine.wf, hb, hm])) ?_
    rw [toNat_encode_sendByte, modeBit_modeOfBit, toNat_decide_eq_one hm, BitVec.toNat_ofNat]
    omega
  · refine assemble_of_not_wf c fun hwf => ?_
    have hrange : b ≤ 255 ∧ m ≤ 1 := by simpa [AsmLine.wf] using hwf
    omega
  · refine assemble_one (if_pos (by simpa [AsmLine.wf] using h)) ?_
    simp only [List.forall_mem_cons] at h
    simp only [toNat_encode_createChar, BitVec.toNat_ofNat]
    omega
  · obtain ⟨n, hn, hlt⟩ := h
    refine assemble_of_not_wf c fun hwf => ?_
    exact Nat.not_le_of_lt hlt (of_decide_eq_true (List.all_eq_true.1 hwf n hn))

end Sys2Proof.Machine
end

section
/-! SUPPORT. The claims about the units of a byte: the nibble above the control bits, and the three
bytes of a unit (30_encoding.md R88, R89, 41_nibble_encoder.md R140 to R145). -/

namespace Sys2Proof.Machine

/-! ## Control bits and masks -/

theorem bitsOk_facts {c : Config} (h : c.valid = true) :
    (c.rsBit < 4 ∧ c.rwBit < 4 ∧ c.enBit < 4 ∧ c.blBit < 4) ∧
    c.rsBit ≠ c.rwBit ∧ c.rsBit ≠ c.enBit ∧ c.rsBit ≠ c.blBit ∧
    c.rwBit ≠ c.enBit ∧ c.rwBit ≠ c.blBit ∧ c.enBit ≠ c.blBit := by
  obtain ⟨-, -, -, -, -, hb⟩ := valid_facts h
  simpa [Config.bitsOk, and_assoc] using hb

theorem bitMask_eq_twoPow (bit : Nat) : bitMask bit = BitVec.twoPow 8 bit := rfl

theorem getLsbD_bitMask (bit : Nat) {j : Nat} (hj : j < 8) :
    (bitMask bit).getLsbD j = decide (bit = j) := by
  rw [bitMask_eq_twoPow, BitVec.getLsbD_twoPow]
  by_cases h : bit = j <;> simp [h, hj]

theorem toNat_bitMask_lt {bit : Nat} (h : bit < 4) : (bitMask bit).toNat < 2 ^ 4 := by
  rw [bitMask_eq_twoPow, BitVec.toNat_twoPow_of_lt (by omega)]
  exact Nat.pow_lt_pow_right (by decide) h

theorem and_bitMask_eq_zero {t : Byte} {bit : Nat} (h : t.getLsbD bit = false) :
    t &&& bitMask bit = 0 := by
  rw [bitMask_eq_twoPow, BitVec.and_twoPow, h]
  rfl

theorem bitMask_and_bitMask {a b : Nat} (hb : b < 8) (h : a ≠ b) : bitMask a &&& bitMask b = 0 :=
  and_bitMask_eq_zero (by simp [getLsbD_bitMask a hb, h])

theorem getLsbD_controlBits (c : Config) (m : Mode) (bl : Bool) {j : Nat} (hj : j < 8) :
    (controlBits c m bl).getLsbD j =
      (decide (c.rsBit = j) && decide (m = .character) || decide (c.blBit = j) && bl) := by
  have hrs := getLsbD_bitMask c.rsBit hj
  have hbl := getLsbD_bitMask c.blBit hj
  rw [controlBits, BitVec.getLsbD_or]
  cases m <;> cases bl <;> simp [modeBit, rsMask, blMask, hrs, hbl]

theorem toNat_controlBits_lt {c : Config} (h : c.valid = true) (m : Mode) (bl : Bool) :
    (controlBits c m bl).toNat < 2 ^ 4 := by
  obtain ⟨⟨hrs, -, -, hbl⟩, -⟩ := bitsOk_facts h
  rw [controlBits, BitVec.toNat_or]
  refine Nat.or_lt_two_pow ?_ ?_
  · cases modeBit m
    · simp
    · exact toNat_bitMask_lt hrs
  · cases bl
    · simp
    · exact toNat_bitMask_lt hbl

/-! ## The layout of a unit -/

/-- The byte whose upper half a unit carries (R140, R141). -/
def nibbleSource (v : Byte) : UnitSel → Byte
  | .high => v
  | .low => v <<< 4

theorem unitByte_eq (c : Config) (v : Byte) (m : Mode) (bl : Bool) (u : UnitSel) :
    unitByte c v m bl u = (nibbleSource v u &&& 0xF0) ||| controlBits c m bl := by
  cases u <;> rfl

/-- A unit is its nibble above its control bits (R88). -/
theorem toNat_unitByte {c : Config} (h : c.valid = true) (v : Byte) (m : Mode) (bl : Bool)
    (u : UnitSel) :
    (unitByte c v m bl u).toNat =
      (controlBits c m bl).toNat + (nibbleSource v u).toNat / 2 ^ 4 * 2 ^ 4 := by
  have hmask : (0xF0 : Byte) = (BitVec.allOnes 4).setWidth 8 <<< 4 := by decide
  rw [unitByte_eq, hmask, and_setWidth_shiftLeft, BitVec.and_allOnes, BitVec.or_comm,
    toNat_or_digit rfl (toNat_controlBits_lt h m bl) (by decide), BitVec.extractLsb'_toNat,
    Nat.shiftRight_eq_div_pow, Nat.mod_eq_of_lt (by omega)]

/-- Below the nibble a unit has the bits of its control bits. -/
theorem getLsbD_unitByte (c : Config) (v : Byte) (m : Mode) (bl : Bool) (u : UnitSel) {j : Nat}
    (hj : j < 4) :
    (unitByte c v m bl u).getLsbD j =
      (decide (c.rsBit = j) && decide (m = .character) || decide (c.blBit = j) && bl) := by
  have hmask : (0xF0 : Byte).getLsbD j = false := by interval_cases j <;> rfl
  rw [unitByte_eq, BitVec.getLsbD_or, BitVec.getLsbD_and, hmask, Bool.and_false, Bool.false_or,
    getLsbD_controlBits c m bl (by omega)]

/-- The four control bits of a unit: the mode, the backlight, and neither EN nor RW (R88). -/
theorem unitByte_controls {c : Config} (h : c.valid = true) (v : Byte) (m : Mode) (bl : Bool)
    (u : UnitSel) :
    (unitByte c v m bl u).getLsbD c.rsBit = decide (m = .character) ∧
    (unitByte c v m bl u).getLsbD c.blBit = bl ∧
    (unitByte c v m bl u).getLsbD c.enBit = false ∧
    (unitByte c v m bl u).getLsbD c.rwBit = false := by
  obtain ⟨⟨hrs, hrw, hen, hbl⟩, hrsrw, hrsen, hrsbl, -, hrwbl, henbl⟩ := bitsOk_facts h
  simp [getLsbD_unitByte, hrs, hrw, hen, hbl, hrsrw, hrsen, hrsbl, hrsbl.symm, hrwbl.symm,
    henbl.symm]

/-- Settles O12: a unit's number is its nibble times 16 plus the control bits, which both units
share. -/
theorem unitLayout : Obligations.UnitLayout := by
  intro c v m bl h
  have hhi := toNat_unitByte h v m bl .high
  have hlo := toNat_unitByte h v m bl .low
  have hcontrol := toNat_controlBits_lt h m bl
  have hshift : (v <<< 4).toNat = v.toNat * 2 ^ 4 % 2 ^ 8 := by
    rw [BitVec.toNat_shiftLeft, Nat.shiftLeft_eq]
  simp only [unitByte, nibbleSource, hshift] at hhi hlo
  refine ⟨by omega, by omega, by omega, fun t ht => ?_⟩
  obtain rfl | rfl : t = unitByte c v m bl .high ∨ t = unitByte c v m bl .low := by
    simpa [unitByte] using ht
  · exact unitByte_controls h v m bl .high
  · exact unitByte_controls h v m bl .low

/-! ## The three bytes of a unit -/

theorem and_not_of_and_eq_zero {n : Nat} {t e : BitVec n} (h : t &&& e = 0) : t &&& ~~~ e = t := by
  have hsplit : t &&& ~~~ e = (t &&& ~~~ e) ||| (t &&& e) := by rw [h]; simp
  rw [hsplit, ← BitVec.and_or_distrib_left]
  simp

theorem or_xor_of_and_eq_zero {n : Nat} {t e : BitVec n} (h : t &&& e = 0) :
    (t ||| e) ^^^ t = e := by
  ext i hi
  have hbit : (t[i] && e[i]) = false := by rw [← BitVec.getElem_and, h]; simp
  rw [BitVec.getElem_xor, BitVec.getElem_or]
  cases ht : t[i]
  · simp
  · rw [ht, Bool.true_and] at hbit
    simp [hbit]

/-- Settles O13: a unit has EN and RW clear, and EN's mask is not RW's. -/
theorem unitWrites : Obligations.UnitWrites := by
  intro c v m bl u h
  obtain ⟨-, -, hen, hrw⟩ := unitByte_controls h v m bl u
  obtain ⟨⟨-, hrwlt, -, -⟩, -, -, -, hrwen, -⟩ := bitsOk_facts h
  have henzero : unitByte c v m bl u &&& enMask c = 0 := and_bitMask_eq_zero hen
  have hrwzero : unitByte c v m bl u &&& rwMask c = 0 := and_bitMask_eq_zero hrw
  have hmasks : enMask c &&& rwMask c = 0 := bitMask_and_bitMask (by omega) hrwen.symm
  have hlow : writeByte c (unitByte c v m bl u) .enLow = unitByte c v m bl u :=
    and_not_of_and_eq_zero henzero
  refine ⟨rfl, rfl, rfl, henzero, hlow, ?_, fun w => ?_⟩
  · rw [hlow]
    exact or_xor_of_and_eq_zero henzero
  · cases w with
    | data => exact hrwzero
    | enHigh =>
      rw [writeByte, BitVec.and_or_distrib_right, hrwzero, hmasks]
      rfl
    | enLow => rw [hlow, hrwzero]

end Sys2Proof.Machine
end

section
/-! SUPPORT. One edge, phase by phase: acceptance in IDLE and the rows of OPEN, WRITE and HOLD, each as an
equation for the step (40_sequencer.md R111 to R121). -/

namespace Sys2Proof.Machine

/-! ## Acceptance -/

/-- Settles O14: a request presented in IDLE is accepted, with its pins used up and its word latched. -/
theorem stepRunsDecodedRequest : Obligations.StepRunsDecodedRequest :=
  fun _ hp hr hv => step_accept hr hp hv

/-- The pins of `withFetchWord` are used up at the edge that takes the request. -/
theorem quietEdge_withFetchWord (s : State) (nbits w : Nat) :
    quietEdge (s.withFetchWord nbits w) = { s with ph := .idle, dv := false } := by
  simp [quietEdge, State.withFetchWord]

/-- Settles O15: the host's pins present the word to a block in IDLE, which accepts it. -/
theorem presentedWordRunsNext : Obligations.PresentedWordRunsNext := by
  intro s nbits w hbits
  have haccept := step_accept (s := s.withFetchWord nbits w) rfl rfl rfl
  rw [quietEdge_withFetchWord] at haccept
  exact ⟨_, if_pos hbits, haccept⟩

/-! ## Advancing -/

/-- `advance` starts the next step where the job has one (R119). -/
theorem advance_of_getElem? {s : State} {st : JobStep} (hst : s.job[s.stepIx.toNat + 1]? = some st) :
    advance s = .next (start st { s with stepIx := s.stepIx + 1 }) := by
  obtain ⟨hlt, -⟩ := List.getElem?_eq_some_iff.1 hst
  rw [advance, if_neg hlt.ne, hst]

/-- `advance` ends the job after its last step (R119). -/
theorem advance_of_last {s : State} (hl : s.stepIx.toNat + 1 = s.job.length) :
    advance s = .next (endJob s) :=
  if_pos hl

theorem endJob_of_init {s : State} (h : s.req.toNat % 16 = 0) :
    endJob s = { s with ph := .idle, initialized := true } := by
  rw [endJob, if_pos ((opOf_eq_zero_iff _).2 h)]

theorem endJob_of_not_init {s : State} (h : s.req.toNat % 16 ≠ 0) :
    endJob s = { s with ph := .idle } := by
  rw [endJob, if_neg (h ∘ (opOf_eq_zero_iff _).1)]

/-- A hold that fits the counter is loaded in full. -/
theorem enterHold_of_lt {s : State} {n : Nat} (h : n < 2 ^ s.cfg.cntW) :
    enterHold n s = { s with ph := .hold, cnt := n } := by
  rw [enterHold, loadCount_of_lt h]

/-- Settles O37: the job is over after its last step, else the next one starts; `REQ` says whether it
was INIT's. -/
theorem advanceStartsNextStep : Obligations.AdvanceStartsNextStep := by
  refine ⟨fun s hl hinit => ?_, fun s hl hinit => ?_, fun s v m hst => advance_of_getElem? hst,
    fun s n hn hst => ?_, fun s a hst => advance_of_getElem? hst⟩
  · rw [advance_of_last hl, endJob_of_init hinit]
  · rw [advance_of_last hl, endJob_of_not_init hinit]
  · rw [advance_of_getElem? hst]
    exact congrArg _ (enterHold_of_lt hn)

/-! ## The rows of OPEN -/

theorem step_openBus {s : State} (hp : s.ph = .openBus) (hr : (pins s).rst = false) :
    step s = openEdge (pins s) (beginEdge s) := by
  rw [step_run hr (.inl (by simp [hp])), sequencerEdge, beginEdge_ph, hp]

/-- Settles O34: the open waits, succeeds or fails, and joins the trace when it is answered. -/
theorem openPhaseRows : Obligations.OpenPhaseRows := by
  refine ⟨fun s hp hr hd => ?_, fun s hp hr hd hok => ?_, fun s hp hr hd hok => ?_⟩
  · simp [step_openBus hp hr, openEdge, hd, beginEdge_waitingOpen hp hd]
  · simp [step_openBus hp hr, openEdge, hd, hok, beginEdge_doneOpen hp hd]
  · simp [step_openBus hp hr, openEdge, hd, hok, beginEdge_doneOpen hp hd, raise_initBusFail]

/-! ## The rows of WRITE -/

theorem step_write {s : State} (hp : s.ph = .write) (hr : (pins s).rst = false) :
    step s = writeEdge (pins s) (beginEdge s) := by
  rw [step_run hr (.inl (by simp [hp])), sequencerEdge, beginEdge_ph, hp]

/-- The edge of a write that the transport has not completed is quiet (R114). -/
theorem step_waitingWrite {s : State} (hp : s.ph = .write) (hr : (pins s).rst = false)
    (hd : (pins s).bwDone = false) : step s = .next (quietEdge s) := by
  simp [step_write hp hr, writeEdge, hd, beginEdge_waitingWrite hp hd]

/-- Where a completed write leads: from the data write to the enable-high write at once, from the other
two to their holds (R116, R117). -/
def afterWrite (s : State) : State :=
  match s.w with
  | .data => { s with w := .enHigh }
  | .enHigh => { s with ph := .hold, cnt := s.cfg.nHoldHi }
  | .enLow => { s with ph := .hold, cnt := s.cfg.nHoldLo }

theorem afterWrite_data {s : State} (hw : s.w = .data) : afterWrite s = { s with w := .enHigh } := by
  rw [afterWrite, hw]

theorem afterWrite_hold {s : State} (hw : s.w ≠ .data) :
    afterWrite s = { s with ph := .hold, cnt := holdAfter s.cfg s.w } := by
  cases h : s.w with
  | data => exact absurd h hw
  | enHigh => simp [afterWrite, holdAfter, h]
  | enLow => simp [afterWrite, holdAfter, h]

/-- The holds of a valid configuration are not empty. -/
theorem holdAfter_pos {c : Config} {w : WriteSel} (hv : c.valid = true) (hw : w ≠ .data) :
    1 ≤ holdAfter c w := by
  obtain ⟨⟨hhi, -⟩, ⟨hlo, -⟩, -⟩ := valid_facts hv
  cases w with
  | data => exact absurd rfl hw
  | enHigh => exact hhi
  | enLow => exact hlo

theorem writeEdge_done {inp : Inputs} {s : State} (hv : s.cfg.valid = true) (hd : inp.bwDone = true) :
    writeEdge inp s = .next (afterWrite s) := by
  obtain ⟨⟨-, hhi⟩, ⟨-, hlo⟩, -⟩ := valid_facts hv
  cases hw : s.w <;> simp [writeEdge, afterWrite, hd, hw, enterHold_of_lt, hhi, hlo]

/-- The edge that completes a write adds it to the trace. -/
theorem step_doneWrite {s : State} (hv : s.cfg.valid = true) (hp : s.ph = .write)
    (hr : (pins s).rst = false) (hd : (pins s).bwDone = true) :
    step s = .next (afterWrite
      { quietEdge s with trace := s.trace ++ [.write s.addr (bwData s)] }) := by
  rw [step_write hp hr, beginEdge_doneWrite hp hd]
  exact writeEdge_done hv hd

/-- Settles O35, by the write that `W` selects: a waiting write is a quiet edge, a completed one joins
the trace with the byte the ports show. -/
theorem writePhaseRows : Obligations.WritePhaseRows := by
  refine ⟨fun s hp hr hd => ⟨step_waitingWrite hp hr hd, bwData_quietEdge s⟩,
    fun s v m hv hp hr hd hc => ?_⟩
  rw [step_doneWrite hv hp hr hd, bwData_byte hc]
  cases hw : s.w <;> simp [afterWrite, quietEdge, hw, writeByte]

/-! ## The rows of HOLD -/

theorem step_hold {s : State} (hp : s.ph = .hold) (hr : (pins s).rst = false) :
    step s = holdEdge (quietEdge s) := by
  rw [step_run hr (.inl (by simp [hp])), sequencerEdge, beginEdge_ph, hp, beginEdge_quiet (.inr hp)]

/-- A hold with more than one cycle left counts down (R115). -/
theorem step_countDown {s : State} (hp : s.ph = .hold) (hr : (pins s).rst = false) (hc : 1 < s.cnt) :
    step s = .next { quietEdge s with cnt := s.cnt - 1 } := by
  have h0 : (quietEdge s).cnt ≠ 0 := Nat.ne_zero_of_lt hc
  have h1 : (quietEdge s).cnt ≠ 1 := hc.ne'
  rw [step_hold hp hr, holdEdge, if_neg h0, if_neg h1]
  rfl

/-- A hold with one cycle left ends (R115). -/
theorem step_holdEnd {s : State} (hp : s.ph = .hold) (hr : (pins s).rst = false) (hc : s.cnt = 1) :
    step s = holdEnd (quietEdge s) := by
  have h1 : (quietEdge s).cnt = 1 := hc
  rw [step_hold hp hr, holdEdge, if_neg (by simp [h1]), if_pos h1]

theorem holdEnd_hold {s : State} {n : Nat} (hc : currentStep s = some (.hold n)) :
    holdEnd s = advance s := by
  simp [holdEnd, hc]

theorem holdEnd_enHigh {s : State} {v : Byte} {m : Mode} (hc : currentStep s = some (.byte v m))
    (hw : s.w = .enHigh) : holdEnd s = .next { s with ph := .write, w := .enLow } := by
  simp [holdEnd, hc, hw]

theorem holdEnd_highUnit {s : State} {v : Byte} {m : Mode} (hc : currentStep s = some (.byte v m))
    (hw : s.w = .enLow) (hu : s.u = .high) : holdEnd s = .next (enterWrite .low .data s) := by
  simp [holdEnd, hc, hw, hu]

theorem holdEnd_lowUnit {s : State} {v : Byte} {m : Mode} (hc : currentStep s = some (.byte v m))
    (hw : s.w = .enLow) (hu : s.u = .low) : holdEnd s = advance s := by
  simp [holdEnd, hc, hw, hu]

/-- Settles O36: the count falls to 1, and the step, `W` and `U` say how the hold ends. -/
theorem holdAndIdleRows : Obligations.HoldAndIdleRows := by
  refine ⟨fun s hp hr hv => ?_, fun s hp hr hc => step_countDown hp hr hc,
    fun s n hp hr hc hcur => ?_, fun s v m hp hr hc hcur hw => ?_,
    fun s v m hp hr hc hcur hw hu => ?_, fun s v m hp hr hc hcur hw hu => ?_, fun s hp hr hc => ?_⟩
  · rw [step_run hr (.inr hv), sequencerEdge, beginEdge_ph, hp, beginEdge_quiet (.inl hp)]
  · rw [step_holdEnd hp hr hc]
    exact holdEnd_hold hcur
  · rw [step_holdEnd hp hr hc]
    exact holdEnd_enHigh hcur hw
  · rw [step_holdEnd hp hr hc]
    exact holdEnd_highUnit hcur hw hu
  · rw [step_holdEnd hp hr hc]
    exact holdEnd_lowUnit hcur hw hu
  · rw [step_hold hp hr]
    exact if_pos hc

end Sys2Proof.Machine
end

section
/-! SUPPORT. A block with the invariant meets no row that the transition table does not list, and what
its ports show (40_sequencer.md R115, R121, R122). -/

namespace Sys2Proof.Machine

/-! ## A block with the invariant goes on -/

theorem phaseFits_openBus_iff {s : State} (hp : s.ph = .openBus) :
    phaseFits s = true ↔ ∃ a, currentStep s = some (.busOpen a) := by
  unfold phaseFits
  rw [hp]
  rcases currentStep s with _ | ⟨_ | _ | _⟩ <;> simp

/-- A job that stands at one of its steps can advance (R119). -/
theorem advance_goesOn {s : State} {st : JobStep} (hc : currentStep s = some st) :
    ∃ t, advance s = .next t := by
  obtain ⟨hlt, -⟩ := List.getElem?_eq_some_iff.1 hc
  obtain ⟨-, ha⟩ | ⟨_, -, -, ha⟩ | ⟨hne, hnone, -⟩ := advance_cases s
  · exact ⟨_, ha⟩
  · exact ⟨_, ha⟩
  · have hle := List.getElem?_eq_none_iff.1 hnone
    omega

theorem openEdge_goesOn {s : State} (inp : Inputs) (hp : s.ph = .openBus)
    (hfit : phaseFits s = true) : ∃ t, openEdge inp s = .next t := by
  obtain ⟨a, hc⟩ := (phaseFits_openBus_iff hp).1 hfit
  unfold openEdge
  cases inp.boDone
  · exact ⟨_, rfl⟩
  · cases inp.boOk
    · exact ⟨_, rfl⟩
    · exact advance_goesOn hc

theorem writeEdge_goesOn (inp : Inputs) {s : State} (hv : s.cfg.valid = true) :
    ∃ t, writeEdge inp s = .next t := by
  cases hd : inp.bwDone
  · exact ⟨s, by simp [writeEdge, hd]⟩
  · exact ⟨_, writeEdge_done hv hd⟩

/-- After a data write there is no hold: the invariant leaves it no count. -/
theorem holdEnd_goesOn {s : State} (hp : s.ph = .hold) (hfit : phaseFits s = true) :
    ∃ t, holdEnd s = .next t := by
  obtain ⟨hpos, ⟨n, hc, -⟩ | ⟨v, m, hc, hle⟩⟩ := (phaseFits_hold_iff hp).1 hfit
  · rw [holdEnd_hold hc]
    exact advance_goesOn hc
  · cases hw : s.w with
    | data =>
      rw [hw, holdAfter] at hle
      omega
    | enHigh => exact ⟨_, holdEnd_enHigh hc hw⟩
    | enLow =>
      cases hu : s.u with
      | high => exact ⟨_, holdEnd_highUnit hc hw hu⟩
      | low =>
        rw [holdEnd_lowUnit hc hw hu]
        exact advance_goesOn hc

theorem holdEdge_goesOn {s : State} (hp : s.ph = .hold) (hfit : phaseFits s = true) :
    ∃ t, holdEdge s = .next t := by
  obtain ⟨hpos, -⟩ := (phaseFits_hold_iff hp).1 hfit
  rw [holdEdge, if_neg (Nat.ne_zero_of_lt hpos)]
  split
  · exact holdEnd_goesOn hp hfit
  · exact ⟨_, rfl⟩

theorem sequencerEdge_goesOn (inp : Inputs) {s : State} (h : inv s = true) :
    ∃ t, sequencerEdge inp s = .next t := by
  obtain ⟨hv, -, -, hfit, -⟩ := (inv_iff s).1 h
  unfold sequencerEdge
  cases hp : s.ph with
  | idle => exact ⟨s, rfl⟩
  | openBus => exact openEdge_goesOn inp hp hfit
  | write => exact writeEdge_goesOn inp hv
  | hold => exact holdEdge_goesOn hp hfit

theorem exec_goesOn (i : Instr) (s : State) : ∃ t, exec i s = .next t := by
  obtain ⟨c, -, he⟩ | ⟨a, -, he⟩ | ⟨-, -, v, m, rest, bl, id, sh, he, -⟩ := exec_cases i s <;>
    exact ⟨_, he⟩

/-- Settles O59: a reset and a request always have a next state, and a row of the phase machine does
where the phase fits the current step. -/
theorem invariantStepsGoOn : Obligations.InvariantStepsGoOn := by
  intro s h
  cases hr : (pins s).rst with
  | true => exact ⟨_, step_reset hr⟩
  | false =>
    by_cases ha : s.ph = .idle ∧ (pins s).reqValid = true
    · obtain ⟨hp, hv⟩ := ha
      rw [step_accept hr hp hv]
      exact exec_goesOn _ _
    · have hrow : s.ph ≠ .idle ∨ (pins s).reqValid = false := by
        simpa [or_iff_not_imp_left] using ha
      rw [step_run hr hrow]
      exact sequencerEdge_goesOn _ (inv_beginEdge h)

/-! ## The ports -/

/-- In a unit's writes RW is low, and EN is high in the enable-high write alone (30_encoding.md R89). -/
theorem writeByte_masks {c : Config} (h : c.valid = true) (v : Byte) (m : Mode) (bl : Bool) (u : UnitSel)
    (w : WriteSel) :
    writeByte c (unitByte c v m bl u) w &&& rwMask c = 0 ∧
    writeByte c (unitByte c v m bl u) w &&& enMask c = if w = .enHigh then enMask c else 0 := by
  obtain ⟨-, hhigh, -, hen, hlow, -, hrw⟩ := unitWrites c v m bl u h
  refine ⟨hrw w, ?_⟩
  cases w with
  | data => exact hen
  | enHigh =>
    rw [hhigh, BitVec.and_or_distrib_right, hen, BitVec.and_self]
    simp
  | enLow => exact (congrArg (· &&& enMask c) hlow).trans hen

/-- Settles O52: the ports are read off the state; a waiting write is a quiet edge, which changes none of
the fields `bw_data` and `bw_addr` read; and under the invariant a write belongs to a Byte step. -/
theorem outputsDecodeState : Obligations.OutputsDecodeState := by
  refine ⟨fun s => ⟨rfl, rfl, rfl, rfl, ?_, rfl, rfl, rfl, rfl⟩, fun s v m hc => ?_,
    fun s t hp hr hd hs => ?_, fun s h hp => ?_, outputs_cnt⟩
  · cases hw : s.w <;> simp [outputs, bwData, writeByte, hw]
  · rw [currentUnit_byte hc]
    cases s.u <;> rfl
  · rw [step_waitingWrite hp hr hd] at hs
    cases hs
    exact ⟨bwData_quietEdge s, rfl⟩
  · obtain ⟨hv, -, -, hfit, -⟩ := (inv_iff s).1 h
    obtain ⟨v, m, hc⟩ := (phaseFits_write_iff hp).1 hfit
    rw [bwData_byte hc]
    exact writeByte_masks hv v m s.bl s.u s.w

end Sys2Proof.Machine
end

section
/-! SUPPORT. What a job owes at the edge that starts it: its bus events and its cycles (40_sequencer.md
R112, R125, 70_reset_and_hazards.md R282, R283). -/

namespace Sys2Proof.Machine

theorem remainingCycles_busy {s : State} (hp : s.ph ≠ .idle) :
    remainingCycles s = currentCycles s + jobCycles s.cfg (laterSteps s) := by
  simp [remainingCycles, hp]

theorem jobCycles_cons (c : Config) (st : JobStep) (job : List JobStep) :
    jobCycles c (st :: job) = stepCycles c st + jobCycles c job := by
  simp [jobCycles]

theorem beginJob_ph_ne_idle (first : JobStep) (rest : List JobStep) (s : State) :
    (beginJob first rest s).ph ≠ .idle :=
  start_ph_ne_idle first _

/-- A job that begins with a Byte owes all its events and cycles. -/
theorem beginJob_byte_owes (v : Byte) (m : Mode) (rest : List JobStep) (s : State) :
    pending (beginJob (.byte v m) rest s) = jobEvents s.cfg s.addr s.bl (.byte v m :: rest) ∧
    remainingCycles (beginJob (.byte v m) rest s) = jobCycles s.cfg (.byte v m :: rest) := by
  have hcur : currentCycles (beginJob (.byte v m) rest s) = stepCycles s.cfg (.byte v m) := by
    simp [currentCycles, beginJob, start, holdAfter, cyclesAfter, otherUnitCycles, stepCycles, unitCycles]
    omega
  refine ⟨?_, ?_⟩
  · rw [pending_busy (beginJob_ph_ne_idle _ _ _), currentPending_write (v := v) (m := m) rfl rfl]
    rfl
  · rw [remainingCycles_busy (beginJob_ph_ne_idle _ _ _), hcur, jobCycles_cons]
    rfl

/-- So does a job that begins with the bus open at `ADDR`. -/
theorem beginJob_busOpen_owes (rest : List JobStep) (s : State) :
    pending (beginJob (.busOpen s.addr) rest s) =
      jobEvents s.cfg s.addr s.bl (.busOpen s.addr :: rest) ∧
    remainingCycles (beginJob (.busOpen s.addr) rest s) =
      jobCycles s.cfg (.busOpen s.addr :: rest) := by
  refine ⟨?_, ?_⟩
  · rw [pending_busy (beginJob_ph_ne_idle _ _ _), currentPending_openBus rfl]
    rfl
  · rw [remainingCycles_busy (beginJob_ph_ne_idle _ _ _), jobCycles_cons]
    rfl

/-- Settles O43, by what a request can do: an error leaves the job as it was and the block in IDLE, and
every job begins with a Byte or, INIT's, with the bus open. -/
theorem acceptanceOwesWholeJob : Obligations.AcceptanceOwesWholeJob := by
  intro i s t he
  obtain ⟨c, -, hi⟩ | ⟨a, -, hi⟩ | ⟨-, -, v, m, rest, bl, id, sh, hi, -⟩ := exec_cases i s <;>
    rw [hi] at he <;> cases he
  · obtain ⟨ei, es, en, eo, hraise⟩ := raise_frame c s
    rw [hraise]
    exact ⟨rfl, fun hb => absurd rfl hb, fun _ => ⟨pending_idle rfl, rfl, rfl⟩⟩
  · exact ⟨rfl, fun _ => beginJob_busOpen_owes _ { s with addr := a, initialized := false },
      fun hp => absurd hp (beginJob_ph_ne_idle _ _ _)⟩
  · exact ⟨rfl, fun _ => beginJob_byte_owes v m rest { s with bl := bl, id := id, sh := sh },
      fun hp => absurd hp (beginJob_ph_ne_idle _ _ _)⟩

end Sys2Proof.Machine
end

section
/-! SUPPORT. Runs under a scripted schedule: a slot of a bus write, a hold, a unit of three writes and two
holds, and the two units of a Byte step (40_sequencer.md R114 to R117, R125). -/

namespace Sys2Proof.Machine

/-! ## One scripted edge -/

theorem runFor_one (s : State) : runFor 1 s = step s := by
  rw [runFor_step]
  cases step s <;> rfl

/-- A quiet edge takes one entry off the script and draws nothing. -/
theorem quietEdge_script {s : State} {inp : Inputs} {l : List Inputs} (h : s.stim = inp :: l) :
    quietEdge s = { s with stim := l, dv := false } := by
  simp [quietEdge, h]

theorem noReset_cons {inp : Inputs} {ins : List Inputs} :
    noReset (inp :: ins) = true ↔ inp.rst = false ∧ noReset ins = true := by
  simp [noReset]

theorem stalledWrite_cons {inp : Inputs} {ins : List Inputs} :
    stalledWrite (inp :: ins) = true ↔
      (inp.rst = false ∧ inp.bwDone = false) ∧ stalledWrite ins = true := by
  simp [stalledWrite]

/-! ## The slot of a write -/

/-- The slot of a write is its waiting cycles and the one that completes it. -/
theorem writeSlot_split {ins : List Inputs} (h : writeSlot ins = true) :
    ∃ waits last, ins = waits ++ [last] ∧ stalledWrite waits = true ∧ last.rst = false ∧
      last.bwDone = true := by
  rcases List.eq_nil_or_concat ins with rfl | ⟨waits, last, rfl⟩
  · simp [writeSlot] at h
  · exact ⟨waits, last, by simpa [writeSlot, and_assoc] using h⟩

/-- A write waits for as long as the transport does, and `DV` falls at the first edge (R114). -/
theorem runFor_stalledWrite {s : State} {waits rest : List Inputs} (hp : s.ph = .write)
    (hscript : s.stim = waits ++ rest) (hstall : stalledWrite waits = true) :
    runFor waits.length s =
      .next { s with stim := rest, dv := if waits = [] then s.dv else false } := by
  induction waits generalizing s with
  | nil =>
    obtain rfl : s.stim = rest := hscript
    simp [runFor_zero]
  | cons inp waits ih =>
    obtain ⟨⟨hr, hd⟩, hstall⟩ := stalledWrite_cons.1 hstall
    have hpins : pins s = inp := pins_of_script hscript
    have hstep := step_waitingWrite hp (hpins ▸ hr) (hpins ▸ hd)
    rw [quietEdge_script hscript] at hstep
    rw [List.length_cons, runFor_succ _ hstep]
    exact (ih (s := { s with stim := waits ++ rest, dv := false }) hp rfl hstall).trans (by simp)

/-- The state that has completed the write on the ports, its script moved on to `rest`. -/
def withWritten (s : State) (rest : List Inputs) : State :=
  { s with stim := rest, dv := false, trace := s.trace ++ [.write s.addr (bwData s)] }

/-- A slot sends one write, whatever its latency. -/
theorem runFor_writeSlot {s : State} {slot rest : List Inputs} (hv : s.cfg.valid = true)
    (hp : s.ph = .write) (hscript : s.stim = slot ++ rest) (hslot : writeSlot slot = true) :
    runFor slot.length s = .next (afterWrite (withWritten s rest)) := by
  obtain ⟨waits, last, rfl, hstall, hr, hd⟩ := writeSlot_split hslot
  rw [List.append_assoc] at hscript
  rw [List.length_append, runFor_add _ _ (runFor_stalledWrite hp hscript hstall)]
  rw [List.length_singleton, runFor_one]
  exact step_doneWrite (s := { s with stim := last :: rest, dv := _ }) hv hp hr hd

/-! ## A hold -/

/-- A hold counts its edges down. -/
theorem runFor_countDown {s : State} {ins rest : List Inputs} (hp : s.ph = .hold)
    (hscript : s.stim = ins ++ rest) (hr : noReset ins = true) (hc : ins.length < s.cnt) :
    runFor ins.length s = .next { s with
      cnt := s.cnt - ins.length, stim := rest, dv := if ins.length = 0 then s.dv else false } := by
  induction ins generalizing s with
  | nil =>
    obtain rfl : s.stim = rest := hscript
    simp [runFor_zero]
  | cons inp ins ih =>
    obtain ⟨hr0, hr⟩ := noReset_cons.1 hr
    rw [List.length_cons] at hc
    have hpins : pins s = inp := pins_of_script hscript
    have hstep := step_countDown hp (hpins ▸ hr0) (by omega)
    rw [quietEdge_script hscript] at hstep
    rw [List.length_cons, runFor_succ _ hstep]
    exact (ih (s := { s with stim := ins ++ rest, dv := false, cnt := s.cnt - 1 }) hp rfl hr
      (Nat.lt_sub_of_add_lt hc)).trans (by simp [Nat.sub_sub, Nat.add_comm])

/-- Settles O38: the hold counts its edges down, and in HOLD the ports request nothing. -/
theorem holdLastsItsCount : Obligations.HoldLastsItsCount := by
  rintro s ins rest _ hp hscript hr rfl hc
  exact ⟨runFor_countDown hp hscript hr hc, by simp [bwValid, hp], by simp [boReq, hp]⟩

/-- As many edges as a hold counts: its last one finds the count at 1 and ends it. -/
theorem runFor_hold {s : State} {ins rest : List Inputs} (hp : s.ph = .hold)
    (hscript : s.stim = ins ++ rest) (hr : noReset ins = true) (hlen : ins.length = s.cnt)
    (hpos : 1 ≤ s.cnt) :
    runFor ins.length s = holdEnd { s with cnt := 1, stim := rest, dv := false } := by
  rcases List.eq_nil_or_concat ins with rfl | ⟨first, last, rfl⟩
  · exact absurd hlen (by simp; omega)
  · obtain ⟨hfirst, hlast⟩ : noReset first = true ∧ last.rst = false := by simpa [noReset] using hr
    rw [List.concat_append] at hscript
    rw [List.length_concat] at hlen ⊢
    rw [runFor_add _ _ (runFor_countDown hp hscript hfirst (by omega)), runFor_one]
    have hlast' : s.cnt - first.length = 1 := by omega
    refine (step_holdEnd (s := { s with stim := last :: rest, cnt := _, dv := _ }) hp hlast hlast').trans ?_
    rw [quietEdge_script rfl, hlast']

/-! ## The two units of a Byte step -/

/-- `s` within a unit, which has sent `sent` so far: what the unit's writes and holds change, and what
they leave as it is (R116, R117). -/
def inUnit (s : State) (ph : Phase) (w : WriteSel) (cnt : Nat) (sent : List BusEvent)
    (rest : List Inputs) : State :=
  { s with ph := ph, w := w, cnt := cnt, trace := s.trace ++ sent, stim := rest, dv := false }

/-- The event of the write that `W` selects on a Byte step. -/
def unitWrite (s : State) (v : Byte) (m : Mode) (w : WriteSel) : BusEvent :=
  .write s.addr (writeByte s.cfg (unitByte s.cfg v m s.bl s.u) w)

/-- The last cycle of a unit: its three writes are sent, and its second hold is about to end. -/
def unitSent (s : State) (v : Byte) (m : Mode) (rest : List Inputs) : State :=
  inUnit s .hold .enLow 1 [unitWrite s v m .data, unitWrite s v m .enHigh, unitWrite s v m .enLow] rest

theorem withWritten_inUnit {s : State} {v : Byte} {m : Mode} (hc : currentStep s = some (.byte v m))
    (ph : Phase) (w : WriteSel) (cnt : Nat) (sent : List BusEvent) (l rest : List Inputs) :
    withWritten (inUnit s ph w cnt sent l) rest =
      inUnit s ph w cnt (sent ++ [unitWrite s v m w]) rest := by
  have hdata : bwData (inUnit s ph w cnt sent l) =
      writeByte s.cfg (unitByte s.cfg v m s.bl s.u) w := bwData_byte (s := inUnit s ph w cnt sent l) hc
  rw [withWritten, hdata]
  simp [inUnit, unitWrite]

/-- The enable-high write follows the data write at once (R116). -/
theorem runFor_dataWrite {s : State} {v : Byte} {m : Mode} {slot rest : List Inputs}
    (hv : s.cfg.valid = true) (hp : s.ph = .write) (hw : s.w = .data)
    (hc : currentStep s = some (.byte v m)) (hscript : s.stim = slot ++ rest)
    (hslot : writeSlot slot = true) :
    runFor slot.length s = .next (inUnit s .write .enHigh s.cnt [unitWrite s v m .data] rest) := by
  rw [runFor_writeSlot hv hp hscript hslot, afterWrite_data (s := withWritten s rest) hw, withWritten,
    bwData_byte hc, hw]
  simp [inUnit, unitWrite, hp]

/-- Each of the other two writes is followed by its hold (R116, R117). -/
theorem runFor_heldWrite {s : State} {v : Byte} {m : Mode} {w : WriteSel} (cnt : Nat)
    (sent : List BusEvent) {slot hold : List Inputs} (rest : List Inputs) (hv : s.cfg.valid = true)
    (hc : currentStep s = some (.byte v m)) (hw : w ≠ .data) (hslot : writeSlot slot = true)
    (hr : noReset hold = true) (hlen : hold.length = holdAfter s.cfg w) :
    runFor (slot.length + hold.length) (inUnit s .write w cnt sent (slot ++ (hold ++ rest))) =
      holdEnd (inUnit s .hold w 1 (sent ++ [unitWrite s v m w]) rest) := by
  have hwrite := runFor_writeSlot (s := inUnit s .write w cnt sent (slot ++ (hold ++ rest))) hv rfl rfl
    hslot
  rw [withWritten_inUnit hc, afterWrite_hold hw] at hwrite
  rw [runFor_add _ _ hwrite]
  exact runFor_hold (s := inUnit s .hold w (holdAfter s.cfg w) _ (hold ++ rest)) rfl rfl hr hlen
    (holdAfter_pos hv hw)

/-- A schedule of one unit: the slots of its three writes, the second and the third followed by their
holds. -/
structure UnitSchedule (c : Config) (w1 w2 h1 w3 h2 : List Inputs) : Prop where
  data : writeSlot w1 = true
  enHigh : writeSlot w2 = true
  enHighHold : noReset h1 = true ∧ h1.length = c.nHoldHi
  enLow : writeSlot w3 = true
  enLowHold : noReset h2 = true ∧ h2.length = c.nHoldLo

/-- A unit sends its three writes under every schedule of latencies (R116, R117). -/
theorem runFor_unit {s : State} {v : Byte} {m : Mode} {w1 w2 h1 w3 h2 : List Inputs}
    (rest : List Inputs) (hsched : UnitSchedule s.cfg w1 w2 h1 w3 h2) (hv : s.cfg.valid = true)
    (hp : s.ph = .write) (hw : s.w = .data) (hc : currentStep s = some (.byte v m))
    (hscript : s.stim = w1 ++ (w2 ++ (h1 ++ (w3 ++ (h2 ++ rest))))) :
    runFor (w1.length + (w2.length + h1.length) + (w3.length + h2.length)) s =
      holdEnd (unitSent s v m rest) := by
  obtain ⟨hdata, hhigh, ⟨hhighRuns, hhighLen⟩, hlow, ⟨hlowRuns, hlowLen⟩⟩ := hsched
  have hsentData := runFor_dataWrite hv hp hw hc hscript hdata
  have hsentHigh := (runFor_add _ (w2.length + h1.length) hsentData).trans
    (runFor_heldWrite s.cnt _ _ hv hc nofun hhigh hhighRuns hhighLen)
  rw [holdEnd_enHigh (s := inUnit s .hold .enHigh 1 _ _) hc rfl] at hsentHigh
  rw [runFor_add _ _ hsentHigh]
  exact runFor_heldWrite 1 _ _ hv hc nofun hlow hlowRuns hlowLen

/-- The enable-low write sends what the data write sent, for a unit has EN low (30_encoding.md R89). -/
theorem unitSent_eq {s : State} (hv : s.cfg.valid = true) (v : Byte) (m : Mode) (rest : List Inputs) :
    unitSent s v m rest = inUnit s .hold .enLow 1
      [.write s.addr (unitByte s.cfg v m s.bl s.u),
       .write s.addr (unitByte s.cfg v m s.bl s.u ||| enMask s.cfg),
       .write s.addr (unitByte s.cfg v m s.bl s.u)] rest := by
  obtain ⟨hdata, hhigh, -, -, hlow, -⟩ := unitWrites s.cfg v m s.bl s.u hv
  simp only [unitSent, unitWrite, hdata, hhigh, hlow]

/-- Settles O40: the high unit's last hold starts the low unit, whose last hold advances the job. -/
theorem byteStepSendsSixWrites : Obligations.ByteStepSendsSixWrites := by
  intro s v m w1 w2 h1 w3 h2 w4 w5 h3 w6 h4 rest hv hp hu hw hc hslots hholds hl1 hl2 hl3 hl4 hscript
  simp only [List.forall_mem_cons] at hslots hholds
  obtain ⟨hw1, hw2, hw3, hw4, hw5, hw6, -⟩ := hslots
  obtain ⟨hh1, hh2, hh3, hh4, -⟩ := hholds
  have hhighSched : UnitSchedule s.cfg w1 w2 h1 w3 h2 := ⟨hw1, hw2, ⟨hh1, hl1⟩, hw3, hh2, hl2⟩
  have hlowSched : UnitSchedule s.cfg w4 w5 h3 w6 h4 := ⟨hw4, hw5, ⟨hh3, hl3⟩, hw6, hh4, hl4⟩
  have hhigh := runFor_unit (w4 ++ (w5 ++ (h3 ++ (w6 ++ (h4 ++ rest))))) hhighSched hv hp hw hc
    (by rw [hscript]; simp only [List.append_assoc])
  rw [holdEnd_highUnit (s := unitSent s v m _) hc rfl hu] at hhigh
  have hlow := runFor_unit (s := enterWrite .low .data (unitSent s v m _)) rest hlowSched hv rfl rfl hc
    rfl
  rw [holdEnd_lowUnit (s := unitSent (enterWrite .low .data (unitSent s v m _)) v m rest) hc rfl rfl]
    at hlow
  have hrun := (runFor_add _ _ hhigh).trans hlow
  rw [unitSent_eq (s := enterWrite .low .data (unitSent s v m _)) hv, unitSent_eq hv] at hrun
  simpa [Nat.add_assoc, enterWrite, inUnit, unitByte, hu] using hrun

end Sys2Proof.Machine
end

section
/-! SUPPORT. The encoder's formulas, written out with the masks of 00_scope.md R5, and the job of
SEND_BYTE (41_nibble_encoder.md R140, R141, R146). -/

namespace Sys2Proof.Machine

/-! ## The encoder's two functions -/

/-- A control bit set in a number is its mask of R5. -/
theorem natCast_one_shiftLeft (bit : Nat) : ((1 <<< bit : Nat) : Byte) = bitMask bit := by
  apply BitVec.eq_of_toNat_eq
  rw [bitMask_eq_twoPow, BitVec.toNat_twoPow, BitVec.natCast_eq_ofNat, BitVec.toNat_ofNat,
    Nat.one_shiftLeft]

/-- The mode mux and the backlight OR, with the masks of R5 written out (R143, R144). -/
theorem controlBits_eq_masks (c : Config) (m : Mode) (bl : Bool) :
    controlBits c m bl =
      ((if m = .character then 1 <<< c.rsBit else 0 : Nat) : Byte) |||
        ((if bl = true then 1 <<< c.blBit else 0 : Nat) : Byte) := by
  simp only [Nat.cast_ite, natCast_one_shiftLeft]
  cases m <;> rfl

/-- Settles O11: each function is its nibble above the control bits, which both share; the statement
writes the two masks as numbers, cast to a byte. -/
theorem encoderFunctions : Obligations.EncoderFunctions := by
  intro c v m bl
  rw [BitVec.or_assoc, BitVec.or_assoc, ← controlBits_eq_masks]
  exact ⟨rfl, rfl⟩

/-! ## A request that begins with a Byte -/

/-- A request that is checked for NOT_INIT passes the check after INIT (60_exceptions.md R244). -/
theorem ifInitialized_of_initialized {s : State} (h : s.initialized = true) (t : State) :
    ifInitialized s t = .next t :=
  if_pos h

/-- Before INIT it is rejected, whatever it would have done (60_exceptions.md R244). -/
theorem ifInitialized_of_uninitialized {s : State} (h : s.initialized = false) (t : State) :
    ifInitialized s t = .next (rejectedNotInit s) := by
  rw [ifInitialized, h, raise_notInit]
  rfl

/-- A job that begins with a Byte starts in its first write. -/
theorem beginJob_byte (v : Byte) (m : Mode) (rest : List JobStep) (s : State) :
    beginJob (.byte v m) rest s = startsWriting s (.byte v m :: rest) :=
  rfl

theorem exec_sendByte (v : Byte) (m : Mode) (s : State) :
    exec (.sendByte v m) s = ifInitialized s (startsWriting s [.byte v m]) :=
  congrArg (ifInitialized s) (beginJob_byte v m [] s)

/-! ## SEND_BYTE -/

/-- Settles O33: the NOT_INIT check decides between the job and its rejection, the decoder reads the
operands off the word, and the six writes are the encoder's on the reference configuration. -/
theorem sendByteStartsItsJob : Obligations.SendByteStartsItsJob := by
  refine ⟨fun v m s hi => ?_, fun v m s hi => ?_, fun w hop => ?_, fun _ => rfl, fun _ => rfl⟩
  · rw [exec_sendByte, ifInitialized_of_initialized hi]
  · rw [exec_sendByte, ifInitialized_of_uninitialized hi]
  · obtain ⟨-, -, -, -, -, -, -, -, -, -, -, -, -, hsend, -⟩ := decodeReadsTableFields w
    exact hsend hop

end Sys2Proof.Machine
end

section
/-! SUPPORT. INIT's acceptance and its job (42_init.md R160 to R165). -/

namespace Sys2Proof.Machine

/-- INIT's steps after the bus open, with the bytes its patterns compose to (R160; 20_memory.md R76). -/
theorem initSteps_eq_bytes (c : Config) (id sh : Bool) :
    initSteps c id sh =
      [.hold c.nPoweron, .byte 0x03 .command, .hold c.nInitWait, .byte 0x03 .command,
       .byte 0x03 .command, .byte 0x02 .command, .byte 0x28 .command, .byte 0x0C .command,
       .byte 0x01 .command, .hold c.nClear, .byte (ems id sh) .command] := by
  have hfs : fsInit = 0x28 := by decide
  have hdc : dcInit = 0x0C := by decide
  rw [initSteps, hfs, hdc, romInitReset, romInit4Bit, romClearDisplay]

/-- A job that begins with the bus open starts in OPEN. -/
theorem beginJob_busOpen (a : DevAddr) (rest : List JobStep) (s : State) :
    beginJob (.busOpen a) rest s =
      { s with job := .busOpen a :: rest, stepIx := 0, ph := .openBus } :=
  rfl

/-- INIT makes no NOT_INIT check (R165): in every state it loads `ADDR`, clears `INITIALIZED` and
begins its job. -/
theorem exec_init (a : DevAddr) (s : State) :
    exec (.init a) s = .next (beginJob (.busOpen a) (initSteps s.cfg s.id s.sh)
      { s with addr := a, initialized := false }) :=
  rfl

/-- Settles O22: INIT begins its job whatever `INITIALIZED` is, the decoder reads its address off the
word, and the edge that accepts such a word runs it. -/
theorem initStartsItsJob : Obligations.InitStartsItsJob := by
  have hdecode (w : ReqWord) (hop : w.toNat % 16 = 0) :
      decode w = .init (BitVec.ofNat 7 (w.toNat / 2 ^ 8)) :=
    (decodeReadsTableFields w).1 hop
  refine ⟨fun a s => ?_, hdecode, fun s hp hr hv hop => ⟨(pins s).reqWord, ?_⟩⟩
  · rw [exec_init, beginJob_busOpen, initSteps_eq_bytes]
    rfl
  · rw [step_accept hr hp hv, hdecode _ hop]

end Sys2Proof.Machine
end

section
/-! SUPPORT. The public operations (43_operations.md R180 to R191): what each makes of a state, as
one equation per request under the check for NOT_INIT, then its claim. -/

namespace Sys2Proof.Machine

/-! ## A request under the check for NOT_INIT -/

/-- After INIT it takes the state it is given (60_exceptions.md R244). -/
theorem exec_next_of_initialized {i : Instr} {f : State → State}
    (hexec : ∀ s, exec i s = ifInitialized s (f s)) (s : State) (hi : s.initialized = true) :
    exec i s = .next (f s) :=
  (hexec s).trans (ifInitialized_of_initialized hi _)

/-- Before INIT it is rejected, and nothing of that state is taken (60_exceptions.md R244). -/
theorem exec_rejected_of_uninitialized {i : Instr} {f : State → State}
    (hexec : ∀ s, exec i s = ifInitialized s (f s)) (s : State) (hi : s.initialized = false) :
    exec i s = .next (rejectedNotInit s) :=
  (hexec s).trans (ifInitialized_of_uninitialized hi _)

/-! ## Requests without a flag or an operand -/

theorem exec_clear (s : State) :
    exec .clear s = ifInitialized s (startsWriting s [.byte 0x01 .command, .hold s.cfg.nClear]) :=
  congrArg (ifInitialized s) (beginJob_byte romClearDisplay .command [.hold s.cfg.nClear] s)

theorem exec_home (s : State) :
    exec .home s = ifInitialized s (startsWriting s [.byte 0x02 .command, .hold s.cfg.nClear]) :=
  congrArg (ifInitialized s) (beginJob_byte romReturnHome .command [.hold s.cfg.nClear] s)

theorem exec_scrollLeft (s : State) :
    exec .scrollLeft s = ifInitialized s (startsWriting s [.byte 0x18 .command]) :=
  congrArg (ifInitialized s) (beginJob_byte scrollL .command [] s)

theorem exec_scrollRight (s : State) :
    exec .scrollRight s = ifInitialized s (startsWriting s [.byte 0x1C .command]) :=
  congrArg (ifInitialized s) (beginJob_byte scrollR .command [] s)

/-- Settles O23: the NOT_INIT check decides between the job and its rejection; the six writes are the
encoder's on the reference configuration, and the hold adds none. -/
theorem clearStartsItsJob : Obligations.ClearStartsItsJob := by
  refine ⟨exec_next_of_initialized exec_clear, exec_rejected_of_uninitialized exec_clear,
    fun w hop => ?_, fun _ => rfl⟩
  obtain ⟨-, hclear, -⟩ := decodeReadsTableFields w
  exact hclear hop

/-- Settles O24: as for CLEAR, with the return-home byte. -/
theorem homeStartsItsJob : Obligations.HomeStartsItsJob := by
  refine ⟨exec_next_of_initialized exec_home, exec_rejected_of_uninitialized exec_home,
    fun w hop => ?_, rfl, fun _ => rfl⟩
  obtain ⟨-, -, hhome, -⟩ := decodeReadsTableFields w
  exact hhome hop

/-- Settles O28: the composed pattern is the byte 0x18, and the job it starts touches no flag. -/
theorem scrollLeftStartsItsJob : Obligations.ScrollLeftStartsItsJob := by
  refine ⟨exec_next_of_initialized exec_scrollLeft, exec_rejected_of_uninitialized exec_scrollLeft,
    fun w hop => ?_, fun _ => rfl⟩
  obtain ⟨-, -, -, -, -, -, hleft, -⟩ := decodeReadsTableFields w
  exact hleft hop

/-- Settles O29: as for SCROLL_LEFT, with the pattern that has the `MOVE_RIGHT` bit besides. -/
theorem scrollRightStartsItsJob : Obligations.ScrollRightStartsItsJob := by
  refine ⟨exec_next_of_initialized exec_scrollRight, exec_rejected_of_uninitialized exec_scrollRight,
    fun w hop => ?_, rfl, rfl, fun _ => rfl⟩
  obtain ⟨-, -, -, -, -, -, -, hright, -⟩ := decodeReadsTableFields w
  exact hright hop

/-! ## Requests with an operand -/

/-- The set-DDRAM-address byte is the number R181 gives. -/
theorem ddramAddr_eq_ofNat (c : Config) (line : BitVec 2) (col : BitVec 7) :
    ddramAddr c line col =
      BitVec.ofNat 8 (0x80 + ((lineOffset c line).toNat + col.toNat) % 2 ^ 7) := by
  rw [← toNat_ddramAddr, BitVec.ofNat_toNat, BitVec.setWidth_eq]

/-- The set-CGRAM-address byte of one of the eight slots. -/
theorem cgramAddr_eq_ofNat {slot : Byte} (h : slot.toNat < 8) :
    cgramAddr slot = BitVec.ofNat 8 (0x40 + 8 * slot.toNat) := by
  rw [← Nat.mod_eq_of_lt h, ← toNat_cgramAddr, BitVec.ofNat_toNat, BitVec.setWidth_eq]

theorem slotOk_iff (slot : Byte) : slotOk slot = true ↔ slot.toNat < 8 :=
  decide_eq_true_iff

theorem exec_setCursor (line : BitVec 2) (col : BitVec 7) (s : State) :
    exec (.setCursor line col) s = ifInitialized s (startsWriting s
      [.byte (BitVec.ofNat 8 (0x80 + ((lineOffset s.cfg line).toNat + col.toNat) % 2 ^ 7))
        .command]) := by
  rw [← ddramAddr_eq_ofNat, ← beginJob_byte]
  rfl

theorem exec_writeChar (b : Byte) (s : State) :
    exec (.writeChar b) s = ifInitialized s (startsWriting s [.byte b .character]) :=
  congrArg (ifInitialized s) (beginJob_byte b .character [] s)

/-- After the check for NOT_INIT the slot decides between the job and BAD_SLOT (R190,
60_exceptions.md R246). -/
theorem exec_createChar (slot r0 r1 r2 r3 r4 r5 r6 r7 : Byte) (s : State) :
    exec (.createChar slot r0 r1 r2 r3 r4 r5 r6 r7) s = ifInitialized s
      (if slot.toNat < 8 then startsWriting s
        [.byte (BitVec.ofNat 8 (0x40 + 8 * slot.toNat)) .command, .byte r0 .character,
         .byte r1 .character, .byte r2 .character, .byte r3 .character, .byte r4 .character,
         .byte r5 .character, .byte r6 .character, .byte r7 .character]
      else rejectedBadSlot s) := by
  refine congrArg (ifInitialized s) ?_
  by_cases h : slot.toNat < 8
  · rw [if_pos h, if_pos ((slotOk_iff slot).2 h), ← cgramAddr_eq_ofNat h, beginJob_byte]
  · rw [if_neg h, if_neg (mt (slotOk_iff slot).1 h), raise_badSlot, rejectedBadSlot]

/-- Settles O25: the byte is the pattern's number, the two operands are read from their fields'
widths, and a number out of a field's range is an assembly error. -/
theorem setCursorStartsItsJob : Obligations.SetCursorStartsItsJob := by
  refine ⟨fun line col => exec_next_of_initialized (exec_setCursor line col),
    fun line col => exec_rejected_of_uninitialized (exec_setCursor line col),
    fun w hop => ?_, fun c l k h => ?_, rfl, rfl, rfl, rfl, rfl, rfl, fun _ => rfl, fun _ => rfl⟩
  · obtain ⟨-, -, -, hcursor, -⟩ := decodeReadsTableFields w
    exact hcursor hop
  · obtain ⟨-, -, -, hrange, -⟩ := assembledWords c
    exact hrange l k h

/-- Settles O26: the byte is the operand itself, sent in character mode. -/
theorem writeCharStartsItsJob : Obligations.WriteCharStartsItsJob := by
  refine ⟨fun b => exec_next_of_initialized (exec_writeChar b),
    fun b => exec_rejected_of_uninitialized (exec_writeChar b),
    fun w hop => ?_, fun _ => rfl, fun _ => rfl⟩
  obtain ⟨-, -, -, -, hchar, -⟩ := decodeReadsTableFields w
  exact hchar hop

/-- Settles O32: NOT_INIT is checked first, then the slot; the rows are the word's, row 0 lowest. -/
theorem createCharStartsItsJob : Obligations.CreateCharStartsItsJob := by
  refine ⟨fun slot r0 r1 r2 r3 r4 r5 r6 r7 s hi hs => ?_,
    fun slot r0 r1 r2 r3 r4 r5 r6 r7 s hi hs => ?_, fun slot r0 r1 r2 r3 r4 r5 r6 r7 s hi => ?_,
    fun w hop => ?_, rfl, fun _ => rfl⟩
  · rw [exec_createChar, ifInitialized_of_initialized hi, if_pos hs]
  · rw [exec_createChar, ifInitialized_of_initialized hi, if_neg (Nat.not_lt.2 hs)]
  · rw [exec_createChar, ifInitialized_of_uninitialized hi]
  · obtain ⟨-, -, -, -, -, -, -, -, -, -, -, -, hglyph, -⟩ := decodeReadsTableFields w
    exact hglyph hop

/-! ## Requests that update a flag -/

theorem exec_backlight (on : Bool) (s : State) :
    exec (.backlight on) s =
      ifInitialized s { startsWriting s [.byte 0x00 .command] with bl := on } :=
  congrArg (ifInitialized s) (beginJob_byte romNop .command [] (setBl on s))

/-- The entry-mode requests send the pattern of the flags as they stand after the update. -/
theorem sendEntryMode_eq_startsWriting (s : State) :
    sendEntryMode s = startsWriting s [.byte (ems s.id s.sh) .command] :=
  beginJob_byte _ _ _ _

theorem ems_leftToRight (sh : Bool) : ems true sh = if sh then 0x07 else 0x06 := by
  cases sh <;> rfl

theorem ems_rightToLeft (sh : Bool) : ems false sh = if sh then 0x05 else 0x04 := by
  cases sh <;> rfl

theorem ems_shift (id : Bool) : ems id true = if id then 0x07 else 0x05 := by
  cases id <;> rfl

theorem ems_noShift (id : Bool) : ems id false = if id then 0x06 else 0x04 := by
  cases id <;> rfl

theorem exec_entryLeft (s : State) :
    exec .entryLeft s = ifInitialized s { startsWriting s
      [.byte (if s.sh then 0x07 else 0x06) .command] with id := true } := by
  rw [← ems_leftToRight]
  exact congrArg (ifInitialized s) (sendEntryMode_eq_startsWriting (setId true s))

theorem exec_entryRight (s : State) :
    exec .entryRight s = ifInitialized s { startsWriting s
      [.byte (if s.sh then 0x05 else 0x04) .command] with id := false } := by
  rw [← ems_rightToLeft]
  exact congrArg (ifInitialized s) (sendEntryMode_eq_startsWriting (setId false s))

theorem exec_autoScroll (s : State) :
    exec .autoScroll s = ifInitialized s { startsWriting s
      [.byte (if s.id then 0x07 else 0x05) .command] with sh := true } := by
  rw [← ems_shift]
  exact congrArg (ifInitialized s) (sendEntryMode_eq_startsWriting (setSh true s))

theorem exec_noAutoScroll (s : State) :
    exec .noAutoScroll s = ifInitialized s { startsWriting s
      [.byte (if s.id then 0x06 else 0x04) .command] with sh := false } := by
  rw [← ems_noShift]
  exact congrArg (ifInitialized s) (sendEntryMode_eq_startsWriting (setSh false s))

/-- Settles O27: the flag is part of what the NOT_INIT check lets through, so a rejection keeps it,
and the job does not depend on its old value. -/
theorem backlightStartsItsJob : Obligations.BacklightStartsItsJob := by
  refine ⟨fun on => exec_next_of_initialized (exec_backlight on),
    fun on => exec_rejected_of_uninitialized (exec_backlight on),
    fun w hop => ?_, fun _ => rfl, fun _ => rfl⟩
  obtain ⟨-, -, -, -, -, hbacklight, -⟩ := decodeReadsTableFields w
  exact hbacklight hop

/-- Settles O30: the byte sent is the pattern of the new `ID` and the kept `SH`. -/
theorem entryDirectionRequests : Obligations.EntryDirectionRequests := by
  refine ⟨exec_next_of_initialized exec_entryLeft, exec_rejected_of_uninitialized exec_entryLeft,
    fun w hop => ?_, exec_next_of_initialized exec_entryRight,
    exec_rejected_of_uninitialized exec_entryRight, fun w hop => ?_, fun _ => rfl, fun _ => rfl⟩
  · obtain ⟨-, -, -, -, -, -, -, -, hleft, -⟩ := decodeReadsTableFields w
    exact hleft hop
  · obtain ⟨-, -, -, -, -, -, -, -, -, hright, -⟩ := decodeReadsTableFields w
    exact hright hop

/-- Settles O31: the byte sent is the pattern of the kept `ID` and the new `SH`. -/
theorem autoScrollRequests : Obligations.AutoScrollRequests := by
  refine ⟨exec_next_of_initialized exec_autoScroll, exec_rejected_of_uninitialized exec_autoScroll,
    fun w hop => ?_, exec_next_of_initialized exec_noAutoScroll,
    exec_rejected_of_uninitialized exec_noAutoScroll, fun w hop => ?_, fun _ => rfl, fun _ => rfl⟩
  · obtain ⟨-, -, -, -, -, -, -, -, -, -, hauto, -⟩ := decodeReadsTableFields w
    exact hauto hop
  · obtain ⟨-, -, -, -, -, -, -, -, -, -, -, hnoAuto, -⟩ := decodeReadsTableFields w
    exact hnoAuto hop

end Sys2Proof.Machine
end

section
/-! SUPPORT. The errors of a request: the first check it fails at its acceptance is the one cause raised,
and no step is refused (60_exceptions.md R240 to R248). -/

namespace Sys2Proof.Machine

/-! ## The first check that fails -/

/-- The cause of the first check that a request fails, in the order BAD_OP, NOT_INIT, BAD_SLOT
(60_exceptions.md R246); `none` where its job begins. -/
def failingCheck (i : Instr) (initialized : Bool) : Option Cause :=
  match i with
  | .reservedE => some .badOp
  | .reservedF => some .badOp
  | .init _ => none
  | .createChar slot _ _ _ _ _ _ _ _ =>
    if initialized then (if 8 ≤ slot.toNat then some .badSlot else none) else some .notInit
  | _ => if initialized then none else some .notInit

/-- A request takes the error of its first failing check; where none fails it makes its updates and
begins its job. -/
theorem exec_failingCheck (i : Instr) (s : State) :
    (∃ c, failingCheck i s.initialized = some c ∧ exec i s = .next (raise c s)) ∨
    (failingCheck i s.initialized = none ∧
      ∃ first rest, exec i s = .next (beginJob first rest (acceptanceUpdates i s))) := by
  cases i with
  | init a => exact .inr ⟨rfl, _, _, rfl⟩
  | reservedE => exact .inl ⟨.badOp, rfl, rfl⟩
  | reservedF => exact .inl ⟨.badOp, rfl, rfl⟩
  | createChar slot r0 r1 r2 r3 r4 r5 r6 r7 =>
    obtain ⟨hi, he⟩ | ⟨hi, he⟩ := ifInitialized_cases s _ <;> rw [hi]
    · by_cases hs : 8 ≤ slot.toNat
      · have hbad : ¬ slotOk slot = true := by rwa [slotOk_iff, not_lt]
        exact .inl ⟨.badSlot, if_pos hs, he.trans (congrArg _ (if_neg hbad))⟩
      · have hok : slotOk slot = true := by rwa [slotOk_iff, ← not_le]
        exact .inr ⟨if_neg hs, _, _, he.trans (congrArg _ (if_pos hok))⟩
    · exact .inl ⟨.notInit, rfl, he⟩
  | _ =>
    obtain ⟨hi, he⟩ | ⟨hi, he⟩ := ifInitialized_cases s _ <;> rw [hi]
    · exact .inr ⟨rfl, _, _, he⟩
    · exact .inl ⟨.notInit, rfl, he⟩

/-- The checks read the operation and the slot off the word. -/
theorem failingCheck_decode (w : ReqWord) (initialized : Bool) :
    failingCheck (decode w) initialized =
      if 14 ≤ w.toNat % 16 then some .badOp
      else if w.toNat % 16 ≠ 0 ∧ initialized = false then some .notInit
      else if w.toNat % 16 = 12 ∧ 8 ≤ w.toNat / 2 ^ 8 % 2 ^ 8 then some .badSlot
      else none := by
  unfold decode
  rw [opOf_toNat]
  split
  case h_13 hop => cases initialized <;> simp [failingCheck, hop, aOf_eq_ofNat]
  case h_16 =>
    have hop : 14 ≤ w.toNat % 16 := by simp only [imp_false] at *; omega
    rw [if_pos hop, failingCheck]
  all_goals cases initialized <;> simp [failingCheck, *]

/-- The edge that accepts a request with a failing check raises that check's cause. -/
theorem step_rejects {s : State} (c : Cause) (hp : s.ph = .idle) (hr : (pins s).rst = false)
    (hv : (pins s).reqValid = true)
    (hc : failingCheck (decode (pins s).reqWord) s.initialized = some c) :
    step s = .next (raise c { quietEdge s with req := (pins s).reqWord }) := by
  rw [step_accept hr hp hv]
  obtain ⟨c', hc', he⟩ | ⟨hnone, -⟩ :=
    exec_failingCheck (decode (pins s).reqWord) { quietEdge s with req := (pins s).reqWord }
  · rw [he, Option.some.inj (hc'.symm.trans hc)]
  · exact absurd (hc.symm.trans hnone) nofun

/-! ## The three causes of a rejection -/

/-- A block with a job in progress shows it on the host's ports (10_state.md R32). -/
theorem busy_of_ph_ne_idle {s : State} (hp : s.ph ≠ .idle) : busy s = true ∧ reqReady s = false := by
  simp [busy, reqReady, hp]

/-- Settles O19: the two instructions raise BAD_OP by definition, and the edge's first check is theirs. -/
theorem reservedOpcodesRaiseBadOp : Obligations.ReservedOpcodesRaiseBadOp := by
  refine ⟨fun s => rfl, fun s => rfl, fun s hp hr hv hop => ⟨_, step_rejects .badOp hp hr hv ?_⟩⟩
  rw [failingCheck_decode, if_pos hop]

/-- Settles O17: such a request passes the check for BAD_OP and fails that for NOT_INIT. -/
theorem notInitRejects : Obligations.NotInitRejects := by
  refine ⟨fun s hp hr hv hi hop => ⟨_, step_rejects .notInit hp hr hv ?_⟩,
    fun s hp => (busy_of_ph_ne_idle hp).2⟩
  obtain ⟨h0, hE, hF⟩ : _ ≠ 0x0 ∧ _ ≠ 0xE ∧ _ ≠ 0xF := by simpa using hop
  rw [failingCheck_decode, if_neg (by omega), if_pos ⟨h0, hi⟩]

/-- Settles O18: the operation passes the first two checks, and its slot fails the third. -/
theorem badSlotRejects : Obligations.BadSlotRejects := by
  intro s hp hr hv hi hop hslot
  refine ⟨_, step_rejects .badSlot hp hr hv ?_⟩
  rw [failingCheck_decode, if_neg (by omega), if_neg (by simp [hi]), if_pos ⟨hop, hslot⟩]

/-! ## One cause, in the order of the checks -/

/-- The updates of a request touch neither the diagnostic port nor the sticky bits. -/
theorem acceptanceUpdates_errors (i : Instr) (s : State) :
    (acceptanceUpdates i s).dv = s.dv ∧ (acceptanceUpdates i s).errOp = s.errOp ∧
    (acceptanceUpdates i s).errNoinit = s.errNoinit ∧
    (acceptanceUpdates i s).errSlot = s.errSlot ∧ (acceptanceUpdates i s).errInit = s.errInit := by
  cases i <;> exact ⟨rfl, rfl, rfl, rfl, rfl⟩

/-- A request without a failing check raises nothing. -/
theorem step_begins {s t : State} (hp : s.ph = .idle) (hr : (pins s).rst = false)
    (hv : (pins s).reqValid = true)
    (hc : failingCheck (decode (pins s).reqWord) s.initialized = none) (h : step s = .next t) :
    t.dv = false ∧ t.errOp = s.errOp ∧ t.errNoinit = s.errNoinit ∧ t.errSlot = s.errSlot ∧
      t.errInit = s.errInit := by
  rw [step_accept hr hp hv] at h
  obtain ⟨c, hsome, -⟩ | ⟨-, first, rest, he⟩ :=
    exec_failingCheck (decode (pins s).reqWord) { quietEdge s with req := (pins s).reqWord }
  · exact absurd (hc.symm.trans hsome) nofun
  · obtain ⟨ph, u, w, cnt, hj⟩ := beginJob_frame first rest _
    rw [he, hj] at h
    cases h
    exact acceptanceUpdates_errors _ _

theorem advance_dv {s t : State} (h : advance s = .next t) : t.dv = s.dv := by
  obtain ⟨-, rfl⟩ | ⟨st, -, rfl⟩ := advance_next h
  · rfl
  · obtain ⟨ph, u, w, cnt, hs⟩ := start_frame st { s with stepIx := s.stepIx + 1 }
    rw [hs]

theorem writeEdge_dv {inp : Inputs} {s t : State} (h : writeEdge inp s = .next t) : t.dv = s.dv := by
  obtain ⟨-, rfl⟩ | ⟨-, -, rfl⟩ | ⟨-, -, rfl⟩ | ⟨-, -, rfl⟩ := writeEdge_cases h <;> rfl

theorem holdEdge_dv {s t : State} (h : holdEdge s = .next t) : t.dv = s.dv := by
  obtain ⟨-, rfl⟩ | ⟨-, -, ha⟩ | ⟨-, -, -, -, -, rfl⟩ | ⟨-, -, -, -, -, -, rfl⟩ |
    ⟨-, -, -, -, -, -, ha⟩ := holdEdge_cases h
  · rfl
  · exact advance_dv ha
  · rfl
  · rfl
  · exact advance_dv ha

/-- Of the rows of the phase machine those of OPEN alone touch `DV`. -/
theorem sequencerEdge_dv {inp : Inputs} {s t : State} (hp : s.ph ≠ .openBus)
    (h : sequencerEdge inp s = .next t) : t.dv = s.dv := by
  unfold sequencerEdge at h
  cases hph : s.ph <;> simp only [hph] at h
  case idle => cases h; rfl
  case openBus => exact absurd hph hp
  case write => exact writeEdge_dv h
  case hold => exact holdEdge_dv h

theorem causeCode_eq_one_iff (c : Cause) : causeCode c = 1 ↔ c = .initBusFail := by
  cases c <;> decide

/-- A request raises no INIT_BUS_FAIL: its code is 1 alone, and a job's beginning leaves `DV` as it
was. -/
theorem exec_dc_ne_initBusFail {i : Instr} {s t : State} (h : exec i s = .next t)
    (hdv : s.dv = false) (hraised : t.dv = true) : t.dc ≠ 1 := by
  obtain ⟨c, hc, he⟩ | ⟨a, -, he⟩ | ⟨-, -, v, m, rest, bl, id, sh, he, -⟩ := exec_cases i s <;>
    rw [he] at h <;> cases h
  · exact mt (causeCode_eq_one_iff c).1 hc
  all_goals
    obtain ⟨ph, u, w, cnt, hj⟩ := beginJob_frame _ _ _
    rw [hj] at hraised
    exact absurd (hdv.symm.trans hraised) nofun

/-- Settles O20: the first failing check decides at acceptance, and of the other edges only OPEN's
raise. -/
theorem oneCauseInPriorityOrder : Obligations.OneCauseInPriorityOrder := by
  refine ⟨fun s t hp hr hv h => ?_, fun s t hr h hdv hdc => ?_⟩
  · have hcheck := failingCheck_decode (pins s).reqWord s.initialized
    split_ifs at hcheck ⊢
    · cases (step_rejects .badOp hp hr hv hcheck).symm.trans h
      exact ⟨rfl, rfl, rfl, rfl, rfl, rfl⟩
    · cases (step_rejects .notInit hp hr hv hcheck).symm.trans h
      exact ⟨rfl, rfl, rfl, rfl, rfl, rfl⟩
    · cases (step_rejects .badSlot hp hr hv hcheck).symm.trans h
      exact ⟨rfl, rfl, rfl, rfl, rfl, rfl⟩
    · exact step_begins hp hr hv hcheck h
  · obtain ⟨hr', -⟩ | ⟨-, -, -, he⟩ | ⟨-, -, hrow⟩ := step_cases h
    · exact absurd (hr.symm.trans hr') nofun
    · exact absurd hdc (exec_dc_ne_initBusFail he rfl hdv)
    · by_contra hp
      have hlow : t.dv = false := sequencerEdge_dv (by rwa [beginEdge_ph]) hrow
      exact absurd (hdv.symm.trans hlow) nofun

/-! ## No step is refused -/

theorem advance_ne_refused (s : State) (r : Refusal) : advance s ≠ .refused r := by
  obtain ⟨-, ha⟩ | ⟨st, -, -, ha⟩ | ⟨-, -, ha⟩ := advance_cases s <;> rw [ha] <;> nofun

theorem openEdge_ne_refused (inp : Inputs) (s : State) (r : Refusal) :
    openEdge inp s ≠ .refused r := by
  unfold openEdge
  split_ifs
  · exact advance_ne_refused s r
  · nofun
  · nofun

theorem writeEdge_ne_refused (inp : Inputs) (s : State) (r : Refusal) :
    writeEdge inp s ≠ .refused r := by
  unfold writeEdge
  cases inp.bwDone <;> cases s.w <;> nofun

/-- A hold's end advances, goes on to a write, or stands at a row the table does not list, a fault. -/
theorem holdEnd_ne_refused (s : State) (r : Refusal) : holdEnd s ≠ .refused r := by
  cases hc : currentStep s with
  | none => simp [holdEnd, hc]
  | some st =>
    cases st with
    | busOpen a => simp [holdEnd, hc]
    | hold n => exact holdEnd_hold hc ▸ advance_ne_refused s r
    | byte v m =>
      cases hw : s.w with
      | data => simp [holdEnd, hc, hw]
      | enHigh => rw [holdEnd_enHigh hc hw]; nofun
      | enLow =>
        cases hu : s.u with
        | high => rw [holdEnd_highUnit hc hw hu]; nofun
        | low => exact holdEnd_lowUnit hc hw hu ▸ advance_ne_refused s r

theorem holdEdge_ne_refused (s : State) (r : Refusal) : holdEdge s ≠ .refused r := by
  unfold holdEdge
  split_ifs
  · nofun
  · exact holdEnd_ne_refused s r
  · nofun

theorem sequencerEdge_ne_refused (inp : Inputs) (s : State) (r : Refusal) :
    sequencerEdge inp s ≠ .refused r := by
  unfold sequencerEdge
  cases s.ph with
  | idle => nofun
  | openBus => exact openEdge_ne_refused inp s r
  | write => exact writeEdge_ne_refused inp s r
  | hold => exact holdEdge_ne_refused s r

/-- Settles O60: a reset and a request always have a next state, and a row of the phase machine has one
or faults. -/
theorem noRequestIsRefused : Obligations.NoRequestIsRefused := by
  refine ⟨fun s r => ?_, exec_goesOn⟩
  unfold step
  split_ifs
  · nofun
  · obtain ⟨t, ht⟩ := exec_goesOn (decode (pins s).reqWord) (latchReq (pins s).reqWord (beginEdge s))
    rw [ht]
    nofun
  · exact sequencerEdge_ne_refused _ _ r

/-! ## A transport that never completes -/

theorem stalledOpen_cons {inp : Inputs} {ins : List Inputs} :
    stalledOpen (inp :: ins) = true ↔
      (inp.rst = false ∧ inp.boDone = false) ∧ stalledOpen ins = true := by
  simp [stalledOpen]

/-- The open waits for as long as the transport does, and `DV` falls at the first edge (R118). -/
theorem runFor_stalledOpen {s : State} {waits rest : List Inputs} (hp : s.ph = .openBus)
    (hscript : s.stim = waits ++ rest) (hstall : stalledOpen waits = true) :
    runFor waits.length s =
      .next { s with stim := rest, dv := if waits = [] then s.dv else false } := by
  obtain ⟨hwaits, -⟩ := openPhaseRows
  induction waits generalizing s with
  | nil =>
    obtain rfl : s.stim = rest := hscript
    rfl
  | cons inp waits ih =>
    obtain ⟨⟨hr, hd⟩, hstall⟩ := stalledOpen_cons.1 hstall
    have hpins : pins s = inp := pins_of_script hscript
    have hstep := hwaits s hp (hpins ▸ hr) (hpins ▸ hd)
    rw [quietEdge_script hscript] at hstep
    rw [List.length_cons, runFor_succ _ hstep]
    exact (ih (s := { s with stim := waits ++ rest, dv := false }) hp rfl hstall).trans (by simp)

/-- Settles O39: both waits repeat for as long as the schedule stalls, and a reset leads to IDLE from
every phase. -/
theorem stalledTransportHangs : Obligations.StalledTransportHangs := by
  refine ⟨fun s ins rest hp hscript hstall => ⟨runFor_stalledWrite hp hscript hstall, ?_⟩,
    fun s ins rest hp hscript hstall => ⟨runFor_stalledOpen hp hscript hstall, ?_⟩,
    fun s t hr h => ?_⟩
  · exact busy_of_ph_ne_idle (by simp [hp])
  · exact busy_of_ph_ne_idle (by simp [hp])
  · rw [step_reset hr] at h
    cases h
    exact ⟨rfl, rfl⟩

end Sys2Proof.Machine
end

section
/-! SUPPORT. The cycles a job still takes, edge by edge, when the transport answers each write and open in
its first cycle (70_reset_and_hazards.md R282). -/

namespace Sys2Proof.Machine

/-! ## The cycles left, phase by phase -/

theorem remainingCycles_idle {s : State} (hp : s.ph = .idle) : remainingCycles s = 0 := by
  simp [remainingCycles, hp]

theorem currentCycles_openBus {s : State} (hp : s.ph = .openBus) : currentCycles s = 1 := by
  simp [currentCycles, hp]

theorem currentCycles_write {s : State} (hp : s.ph = .write) :
    currentCycles s =
      1 + holdAfter s.cfg s.w + cyclesAfter s.cfg s.w + otherUnitCycles s.cfg s.u := by
  simp [currentCycles, hp]

theorem currentCycles_holdByte {s : State} {v : Byte} {m : Mode} (hp : s.ph = .hold)
    (hc : currentStep s = some (.byte v m)) :
    currentCycles s = s.cnt + cyclesAfter s.cfg s.w + otherUnitCycles s.cfg s.u := by
  simp [currentCycles, hp, hc]

theorem currentCycles_holdStep {s : State} {n : Nat} (hp : s.ph = .hold)
    (hc : currentStep s = some (.hold n)) : currentCycles s = s.cnt := by
  simp [currentCycles, hp, hc]

/-- What an edge does around its row takes nothing off the cycles left. -/
theorem remainingCycles_beginEdge (s : State) : remainingCycles (beginEdge s) = remainingCycles s := by
  obtain ⟨events, hb⟩ := beginEdge_frame s
  rw [hb]
  rfl

/-- A job in progress has a cycle left: no hold of it has counted to 0. -/
theorem remainingCycles_pos {s : State} (h : inv s = true) (hb : s.ph ≠ .idle) :
    0 < remainingCycles s := by
  obtain ⟨-, -, -, hfit, -⟩ := (inv_iff s).1 h
  rw [remainingCycles_busy hb]
  refine Nat.add_pos_left ?_ _
  cases hp : s.ph with
  | idle => exact absurd hp hb
  | openBus => simp [currentCycles_openBus hp]
  | write =>
    rw [currentCycles_write hp]
    omega
  | hold =>
    obtain ⟨hpos, ⟨n, hc, -⟩ | ⟨v, m, hc, -⟩⟩ := (phaseFits_hold_iff hp).1 hfit
    · rwa [currentCycles_holdStep hp hc]
    · rw [currentCycles_holdByte hp hc]
      omega

/-! ## Starting and advancing -/

/-- A step just started has all its cycles left; a hold of the job is loaded in full. -/
theorem remainingCycles_start {s : State} {st : JobStep} (hfit : stepFits s st = true)
    (hcur : currentStep s = some st) :
    remainingCycles (start st s) = jobCycles s.cfg (st :: laterSteps s) := by
  have hcycles : currentCycles (start st s) = stepCycles s.cfg st := by
    cases st with
    | byte v m =>
      rw [currentCycles_write rfl]
      simp only [start, enterWrite, holdAfter, cyclesAfter, otherUnitCycles, stepCycles, unitCycles]
      omega
    | hold n =>
      obtain ⟨-, hlt⟩ := (stepFits_hold s n).1 hfit
      exact (currentCycles_holdStep (s := start (.hold n) s) rfl hcur).trans (loadCount_of_lt hlt)
    | busOpen a => exact currentCycles_openBus rfl
  obtain ⟨ph, u, w, cnt, hs⟩ := start_frame st s
  have hlater : jobCycles (start st s).cfg (laterSteps (start st s)) =
      jobCycles s.cfg (laterSteps s) := by
    rw [hs]
    rfl
  rw [remainingCycles_busy (start_ph_ne_idle st s), hcycles, hlater, jobCycles_cons]

/-- The first later step is the current one once `STEP` has moved on. -/
theorem laterSteps_next {s : State} {st : JobStep} (hlen : s.job.length ≤ 12)
    (hst : s.job[s.stepIx.toNat + 1]? = some st) :
    currentStep { s with stepIx := s.stepIx + 1 } = some st ∧
      laterSteps s = st :: laterSteps { s with stepIx := s.stepIx + 1 } := by
  obtain ⟨-, hix⟩ := currentStep_start hlen hst
  obtain ⟨hlt, hget⟩ := List.getElem?_eq_some_iff.1 hst
  refine ⟨by rw [currentStep, hix]; exact hst, ?_⟩
  simp only [laterSteps, hix]
  rw [List.drop_eq_getElem_cons hlt, hget]

/-- `advance` leaves the cycles of the later steps, whether it starts the next one or ends the job after
the last (R119, R120). -/
theorem remainingCycles_advance {s t : State} (h : JobRuns s) (ha : advance s = .next t) :
    remainingCycles t = jobCycles s.cfg (laterSteps s) := by
  obtain ⟨hlen, hfits, -⟩ := (jobFits_iff s).1 h.job
  obtain ⟨hlast, rfl⟩ | ⟨st, hst, rfl⟩ := advance_next ha
  · have hnone : laterSteps s = [] := List.drop_eq_nil_of_le hlast.ge
    rw [remainingCycles_idle (endJob_ph s), hnone]
    rfl
  · obtain ⟨hcur, hlater⟩ := laterSteps_next hlen hst
    have hfit : stepFits { s with stepIx := s.stepIx + 1 } st = true :=
      hfits st (List.mem_of_getElem? hst)
    rw [hlater, remainingCycles_start hfit hcur]

/-- The row that ends the current step in its last cycle takes that cycle. -/
theorem advance_takesOneCycle {s t : State} (h : JobRuns s) (hb : s.ph ≠ .idle)
    (hlast : currentCycles s = 1) (ha : advance s = .next t) :
    remainingCycles t + 1 = remainingCycles s := by
  rw [remainingCycles_advance h ha, remainingCycles_busy hb, hlast, Nat.add_comm]

/-- A row that stays within the current step takes off the job what it takes off that step. -/
theorem sameStep_takesOneCycle {s t : State} (hb : s.ph ≠ .idle) (hb' : t.ph ≠ .idle)
    (hlater : laterSteps t = laterSteps s) (hcfg : t.cfg = s.cfg)
    (hone : currentCycles t + 1 = currentCycles s) : remainingCycles t + 1 = remainingCycles s := by
  rw [remainingCycles_busy hb, remainingCycles_busy hb', hlater, hcfg, ← hone]
  omega

/-! ## The rows of the phase machine -/

theorem openEdge_takesOneCycle {inp : Inputs} {s t : State} (h : JobRuns s) (hp : s.ph = .openBus)
    (hd : inp.boDone = true) (hok : inp.boOk = true) (he : openEdge inp s = .next t) :
    remainingCycles t + 1 = remainingCycles s := by
  obtain ⟨hd', -⟩ | ⟨-, hok', -⟩ | ⟨-, -, ha⟩ := openEdge_cases he
  · exact absurd (hd.symm.trans hd') nofun
  · exact absurd (hok.symm.trans hok') nofun
  · exact advance_takesOneCycle h (by simp [hp]) (currentCycles_openBus hp) ha

/-- A completed write leaves the cycles that follow it: of the enable-high write, or of its hold, which
is loaded in full. -/
theorem writeEdge_takesOneCycle {inp : Inputs} {s t : State} {v : Byte} {m : Mode}
    (hv : s.cfg.valid = true) (hp : s.ph = .write) (hc : currentStep s = some (.byte v m))
    (hd : inp.bwDone = true) (he : writeEdge inp s = .next t) :
    remainingCycles t + 1 = remainingCycles s := by
  have hb : s.ph ≠ .idle := by simp [hp]
  obtain rfl : afterWrite s = t := by simpa using (writeEdge_done hv hd).symm.trans he
  by_cases hw : s.w = .data
  · rw [afterWrite_data hw]
    refine sameStep_takesOneCycle hb hb rfl rfl ?_
    rw [currentCycles_write (s := { s with w := .enHigh }) hp, currentCycles_write hp, hw]
    simp only [holdAfter, cyclesAfter]
    omega
  · rw [afterWrite_hold hw]
    refine sameStep_takesOneCycle hb nofun rfl rfl ?_
    rw [currentCycles_holdByte (s := { s with ph := .hold, cnt := holdAfter s.cfg s.w }) rfl hc,
      currentCycles_write hp]
    simp only
    omega

/-- A hold takes one off its count; its last cycle leads to the write, the unit or the step that comes
next. -/
theorem holdEdge_takesOneCycle {s t : State} (h : JobRuns s) (hp : s.ph = .hold)
    (hfit : phaseFits s = true) (he : holdEdge s = .next t) :
    remainingCycles t + 1 = remainingCycles s := by
  have hb : s.ph ≠ .idle := by simp [hp]
  obtain ⟨hc, rfl⟩ | ⟨h1, ⟨n, hc⟩, ha⟩ | ⟨v, m, h1, hc, hw, rfl⟩ | ⟨v, m, h1, hc, hw, hu, rfl⟩ |
    ⟨v, m, h1, hc, hw, hu, ha⟩ := holdEdge_cases he
  · refine sameStep_takesOneCycle hb hb rfl rfl ?_
    obtain ⟨-, ⟨n, hcur, -⟩ | ⟨v, m, hcur, -⟩⟩ := (phaseFits_hold_iff hp).1 hfit
    · rw [currentCycles_holdStep hp hcur,
        currentCycles_holdStep (s := { s with cnt := s.cnt - 1 }) hp hcur]
      exact Nat.sub_add_cancel hc.le
    · rw [currentCycles_holdByte hp hcur,
        currentCycles_holdByte (s := { s with cnt := s.cnt - 1 }) hp hcur]
      simp only
      omega
  · exact advance_takesOneCycle h hb ((currentCycles_holdStep hp hc).trans h1) ha
  · refine sameStep_takesOneCycle hb nofun rfl rfl ?_
    rw [currentCycles_holdByte hp hc, h1, hw, currentCycles_write rfl]
    simp only [holdAfter, cyclesAfter]
    omega
  · refine sameStep_takesOneCycle hb nofun rfl rfl ?_
    rw [currentCycles_holdByte hp hc, h1, hw, hu, currentCycles_write rfl]
    simp only [enterWrite, holdAfter, cyclesAfter, otherUnitCycles, unitCycles]
    omega
  · refine advance_takesOneCycle h hb ?_ ha
    rw [currentCycles_holdByte hp hc, h1, hw, hu]
    rfl

/-! ## An edge and a run -/

/-- The pins of an edge answer what the phase asks of the transport: the write in WRITE, the open in OPEN,
with success. -/
structure AnsweredAtOnce (s : State) : Prop where
  noReset : (pins s).rst = false
  write : s.ph = .write → (pins s).bwDone = true
  openBus : s.ph = .openBus → (pins s).boDone = true ∧ (pins s).boOk = true

theorem AnsweredAtOnce.of_prompt {s : State} (h : prompt (pins s) = true) : AnsweredAtOnce s := by
  obtain ⟨hr, hbw, hbo, hok⟩ : (pins s).rst = false ∧ (pins s).bwDone = true ∧
      (pins s).boDone = true ∧ (pins s).boOk = true := by
    simpa [prompt, and_assoc] using h
  exact ⟨hr, fun _ => hbw, fun _ => ⟨hbo, hok⟩⟩

/-- An edge of a job takes one off its cycles where the transport answers what the phase asks, whatever
its other pins. -/
theorem step_takesOneCycle {s t : State} (h : inv s = true) (hb : s.ph ≠ .idle)
    (hans : AnsweredAtOnce s) (hs : step s = .next t) : remainingCycles t + 1 = remainingCycles s := by
  have hinv : inv (beginEdge s) = true := inv_beginEdge h
  have hrun : JobRuns (beginEdge s) := .of_inv hinv (by simpa using hb)
  obtain ⟨-, -, -, hfit, -⟩ := (inv_iff _).1 hinv
  rw [← remainingCycles_beginEdge s]
  cases hp : s.ph with
  | idle => exact absurd hp hb
  | openBus =>
    obtain ⟨hd, hok⟩ := hans.openBus hp
    rw [step_openBus hp hans.noReset] at hs
    exact openEdge_takesOneCycle hrun (by simpa using hp) hd hok hs
  | write =>
    have hwrite : (beginEdge s).ph = .write := by simpa using hp
    obtain ⟨v, m, hc⟩ := (phaseFits_write_iff hwrite).1 hfit
    rw [step_write hp hans.noReset] at hs
    exact writeEdge_takesOneCycle hrun.valid hwrite hc (hans.write hp) hs
  | hold =>
    rw [step_hold hp hans.noReset, ← beginEdge_quiet (.inr hp)] at hs
    exact holdEdge_takesOneCycle hrun (by simpa using hp) hfit hs

/-- Settles O45: under the invariant the edge goes on, and held-high pins answer every phase. -/
theorem promptEdgeTakesOneCycle : Obligations.PromptEdgeTakesOneCycle := by
  intro s h hb hprompt
  obtain ⟨t, hs⟩ := invariantStepsGoOn s h
  exact ⟨t, hs, step_takesOneCycle h hb (.of_prompt hprompt) hs⟩

/-- Settles O46, by induction on the schedule: each edge takes one off the cycles left, and a block with
the invariant is in IDLE just when none is left. -/
theorem promptJobEndsOnTime : Obligations.PromptJobEndsOnTime := by
  intro s ins rest h hscript hlen hprompt
  induction ins generalizing s with
  | nil =>
    have hidle : s.ph = .idle := by
      by_contra hb
      exact (remainingCycles_pos h hb).ne hlen
    exact ⟨⟨s, rfl, hidle⟩, nofun⟩
  | cons inp ins ih =>
    have hb : s.ph ≠ .idle := fun hp => by
      rw [remainingCycles_idle hp] at hlen
      exact absurd hlen nofun
    obtain ⟨hinp, hins⟩ : prompt inp = true ∧ ins.all prompt = true := by simpa using hprompt
    have hpins : prompt (pins s) = true := by rwa [pins_of_script hscript]
    obtain ⟨t, hs, hone⟩ := promptEdgeTakesOneCycle s h hb hpins
    have hscript' : t.stim = ins ++ rest := by
      rw [step_busy_stim hb (AnsweredAtOnce.of_prompt hpins).noReset hs, hscript]
      rfl
    have hlen' : ins.length = remainingCycles t := by
      rw [List.length_cons] at hlen
      omega
    obtain ⟨⟨u, hend, hidle⟩, hbusy⟩ := ih t (stepKeepsInvariant s t h hs) hscript' hlen' hins
    refine ⟨⟨u, (runFor_succ _ hs).trans hend, hidle⟩, fun j hj => ?_⟩
    cases j with
    | zero => exact ⟨s, rfl, hb⟩
    | succ j =>
      obtain ⟨r, hr, hbr⟩ := hbusy j (Nat.lt_of_succ_lt_succ hj)
      exact ⟨r, (runFor_succ j hs).trans hr, hbr⟩

end Sys2Proof.Machine
end

section
/-! SUPPORT. What the requests cost: the Byte steps and the waits of each request's job, from them its bus
writes and its cycles (70_reset_and_hazards.md R282, R283). -/

namespace Sys2Proof.Machine

/-! ## The bus writes of a job -/

theorem countWrites_append (xs ys : List BusEvent) :
    countWrites (xs ++ ys) = countWrites xs + countWrites ys :=
  List.countP_append

/-- The steps that send a byte (41_nibble_encoder.md R142). -/
def isByte : JobStep → Bool
  | .byte _ _ => true
  | .hold _ => false
  | .busOpen _ => false

/-- A Byte step makes six bus writes, another step none (40_sequencer.md R125). -/
theorem countWrites_stepEvents (c : Config) (a : DevAddr) (bl : Bool) (st : JobStep) :
    countWrites (stepEvents c a bl st) = if isByte st then 6 else 0 := by
  cases st <;> rfl

/-- A job makes six bus writes for each of its Byte steps. -/
theorem countWrites_jobEvents (c : Config) (a : DevAddr) (bl : Bool) (job : List JobStep) :
    countWrites (jobEvents c a bl job) = 6 * job.countP isByte := by
  induction job with
  | nil => rfl
  | cons st job ih =>
    have hcons : jobEvents c a bl (st :: job) = stepEvents c a bl st ++ jobEvents c a bl job := rfl
    rw [hcons, countWrites_append, countWrites_stepEvents, ih, List.countP_cons]
    split <;> omega

/-! ## The job of each request -/

/-- The Byte steps of a request's job (42_init.md R160, 43_operations.md R180 to R191). -/
def requestBytes : Instr → Nat
  | .init _ => 8
  | .createChar _ _ _ _ _ _ _ _ _ => 9
  | _ => 1

/-- The cycles of the other steps of a request's job: INIT's open and waits, and the wait of CLEAR and
HOME. -/
def requestWaits (c : Config) : Instr → Nat
  | .init _ => 1 + c.nPoweron + c.nInitWait + c.nClear
  | .clear => c.nClear
  | .home => c.nClear
  | _ => 0

/-- The costs of a list of steps are those of a request: its Byte steps, and its cycles in a
configuration. -/
structure CostsOf (i : Instr) (c : Config) (job : List JobStep) : Prop where
  bytes : job.countP isByte = requestBytes i
  cycles : jobCycles c job = requestBytes i * (2 * unitCycles c) + requestWaits c i

theorem costsOf_initSteps (a : DevAddr) (c : Config) (id sh : Bool) :
    CostsOf (.init a) c (.busOpen a :: initSteps c id sh) := by
  refine ⟨rfl, ?_⟩
  simp only [initSteps, jobCycles_cons, stepCycles, requestBytes, requestWaits]
  simp only [jobCycles, List.map_nil, List.sum_nil]
  omega

/-- A job of Byte steps alone takes the cycles of its units. -/
theorem jobCycles_bytes (c : Config) {job : List JobStep} (hall : ∀ st ∈ job, isByte st = true) :
    jobCycles c job = job.length * (2 * unitCycles c) := by
  have hsteps : job.map (stepCycles c) = List.replicate job.length (2 * unitCycles c) := by
    refine List.map_eq_replicate_iff.2 fun st hst => ?_
    cases st with
    | byte v m => rfl
    | hold n => exact absurd (hall _ hst) nofun
    | busOpen a => exact absurd (hall _ hst) nofun
  rw [jobCycles, hsteps, List.sum_replicate, smul_eq_mul]

theorem costsOf_bytes {i : Instr} {c : Config} {job : List JobStep}
    (hall : ∀ st ∈ job, isByte st = true) (hlen : job.length = requestBytes i)
    (hw : requestWaits c i = 0) : CostsOf i c job :=
  ⟨(List.countP_eq_length.2 hall).trans hlen, by rw [jobCycles_bytes c hall, hlen, hw, Nat.add_zero]⟩

theorem costsOf_byteHold {i : Instr} {c : Config} (v : Byte) (m : Mode) (hb : requestBytes i = 1)
    (hw : requestWaits c i = c.nClear) : CostsOf i c [.byte v m, .hold c.nClear] := by
  refine ⟨hb.symm, ?_⟩
  rw [hb, hw, jobCycles_cons, jobCycles_cons]
  simp [stepCycles, jobCycles]

theorem raise_ph (c : Cause) (s : State) : (raise c s).ph = .idle := by
  cases c <;> rfl

/-- A job begun under the check for NOT_INIT has its steps' costs, or there is none. -/
theorem ifInitialized_costs {i : Instr} {s u t : State} {first : JobStep} {rest : List JobStep}
    (h : ifInitialized s (beginJob first rest u) = .next t) (hb : t.ph ≠ .idle) (hu : u.cfg = s.cfg)
    (hcosts : CostsOf i s.cfg (first :: rest)) : t.cfg = s.cfg ∧ CostsOf i s.cfg t.job := by
  obtain ⟨-, rfl⟩ | rfl := ifInitialized_next h
  · obtain ⟨ph, v, w, cnt, hj⟩ := beginJob_frame first rest u
    rw [hj]
    exact ⟨hu, hcosts⟩
  · exact absurd (raise_ph _ _) hb

/-- The job a request begins has the request's costs, in every configuration. -/
theorem exec_costs {i : Instr} {s t : State} (h : exec i s = .next t) (hb : t.ph ≠ .idle) :
    t.cfg = s.cfg ∧ CostsOf i s.cfg t.job := by
  cases i with
  | init a =>
    cases h
    exact ⟨rfl, costsOf_initSteps a s.cfg s.id s.sh⟩
  | reservedE => cases h; exact absurd rfl hb
  | reservedF => cases h; exact absurd rfl hb
  | clear => exact ifInitialized_costs h hb rfl (costsOf_byteHold _ _ rfl rfl)
  | home => exact ifInitialized_costs h hb rfl (costsOf_byteHold _ _ rfl rfl)
  | createChar slot r0 r1 r2 r3 r4 r5 r6 r7 =>
    rw [exec_createChar] at h
    obtain ⟨-, rfl⟩ | rfl := ifInitialized_next h
    · split_ifs at hb ⊢
      · exact ⟨rfl, costsOf_bytes (by simp [startsWriting, isByte]) rfl rfl⟩
      · exact absurd rfl hb
    · exact absurd (raise_ph _ _) hb
  | _ => exact ifInitialized_costs h hb rfl (costsOf_bytes (by simp [isByte]) rfl rfl)

/-- Settles O44: an accepted request owes the writes of its job, and an open that fails adds no write to
the trace and ends the job. -/
theorem writesPerRequest : Obligations.WritesPerRequest := by
  refine ⟨fun i s t h => ?_, fun s t hp hr hd hok h => ?_⟩
  · obtain ⟨-, hbusy, hidle⟩ := acceptanceOwesWholeJob i s t h
    split_ifs with hp
    · rw [(hidle hp).1]
      rfl
    · obtain ⟨hpend, -⟩ := hbusy hp
      obtain ⟨-, hcosts⟩ := exec_costs h hp
      rw [hpend, countWrites_jobEvents, hcosts.bytes]
      cases i <;> rfl
  · obtain ⟨-, -, hfails⟩ := openPhaseRows
    cases (hfails s hp hr hd hok).symm.trans h
    exact ⟨by rw [pending_idle rfl]; rfl, countWrites_append _ _⟩

/-- Settles O47: 176 cycles for each Byte step, and the waits of the reference configuration. -/
theorem referenceCycleCounts : Obligations.ReferenceCycleCounts := by
  intro i s t href h hb
  obtain ⟨hcfg, hcosts⟩ := exec_costs h hb
  have hunit : unitCycles referenceConfig = 88 := rfl
  have hpoweron : referenceConfig.nPoweron = 300000 := rfl
  have hinitWait : referenceConfig.nInitWait = 5000 := rfl
  have hclear : referenceConfig.nClear = 1500 := rfl
  rw [hcfg, hcosts.cycles, href]
  cases i <;> simp only [requestBytes, requestWaits, hunit, hpoweron, hinitWait, hclear]

end Sys2Proof.Machine
end

section
/-! SUPPORT. The reset, and the block before its first INIT (70_reset_and_hazards.md R270 to R272). -/

namespace Sys2Proof.Machine

/-! ## Reset -/

/-- Settles O58: the reset state is idle, in the reference configuration. -/
theorem resetHasInvariant : Obligations.ResetHasInvariant := by
  have hvalid : referenceConfig.valid = true := by decide
  exact inv_of_idle rfl hvalid (Nat.pow_pos (by decide)) rfl

/-- The flags of `STATUS` after an edge with `rst = 1` are those of the reset state. -/
theorem status_resetEdge (s : State) : status (resetEdge s) = 0x000C :=
  status_reset

/-- Settles O53: the edge overrides the phase machine; the transport's answer in its cycle still joins the
record outside the block. -/
theorem resetEdgeGivesResetState : Obligations.ResetEdgeGivesResetState := by
  intro s hr
  obtain ⟨events, hobs, -⟩ := observeBus_frame (pins s) (consume s)
  have hstep := step_reset hr
  refine ⟨by simp [reqReady, hr], _, _, _, _, hstep.trans (by rw [hobs]; rfl), fun t ht => ?_⟩
  cases hstep.symm.trans ht
  exact ⟨rfl, rfl, rfl, pending_idle rfl, status_resetEdge _⟩

/-! ## Before an INIT -/

/-- `t` is as idle and as far from an INIT as `s`: no bus operation has been made, and the flags and
`ADDR` are as they were. -/
structure StaysQuiet (s t : State) : Prop where
  idle : t.ph = .idle
  uninitialized : t.initialized = false
  trace : t.trace = s.trace
  bl : t.bl = s.bl
  id : t.id = s.id
  sh : t.sh = s.sh
  addr : t.addr = s.addr

theorem StaysQuiet.trans {s t r : State} (h : StaysQuiet s t) (h' : StaysQuiet t r) :
    StaysQuiet s r :=
  ⟨h'.idle, h'.uninitialized, h'.trace.trans h.trace, h'.bl.trans h.bl, h'.id.trans h.id,
    h'.sh.trans h.sh, h'.addr.trans h.addr⟩

theorem noInit_cons {inp : Inputs} {ins : List Inputs} :
    noInit (inp :: ins) = true ↔
      (inp.rst = false ∧ (inp.reqValid = true → opOf inp.reqWord ≠ 0x0)) ∧ noInit ins = true := by
  cases hv : inp.reqValid <;> simp [noInit, hv]

/-- Before an INIT a request other than INIT is rejected, and without one the edge is quiet. -/
theorem step_staysQuiet {s : State} (hp : s.ph = .idle) (hi : s.initialized = false)
    (hr : (pins s).rst = false) (hreq : (pins s).reqValid = true → opOf (pins s).reqWord ≠ 0x0) :
    ∃ t, step s = .next t ∧ StaysQuiet s t ∧ t.stim = s.stim.tail := by
  cases hv : (pins s).reqValid with
  | false =>
    obtain ⟨hquiet, -⟩ := holdAndIdleRows
    exact ⟨quietEdge s, hquiet s hp hr hv, ⟨hp, hi, rfl, rfl, rfl, rfl, rfl⟩, rfl⟩
  | true =>
    obtain hinit | ⟨c, hc⟩ := exec_uninitialized (decode (pins s).reqWord)
    · exact absurd ((decode_init_iff _).1 hinit) (hreq hv)
    · obtain ⟨ei, es, en, eo, hraise⟩ := raise_frame c { quietEdge s with req := (pins s).reqWord }
      refine ⟨_, (step_accept hr hp hv).trans (hc _ hi), ?_, ?_⟩
      · rw [hraise]
        exact ⟨rfl, hi, rfl, rfl, rfl, rfl, rfl⟩
      · rw [hraise]
        rfl

theorem runFor_staysQuiet {s : State} {ins rest : List Inputs} (hp : s.ph = .idle)
    (hi : s.initialized = false) (hscript : s.stim = ins ++ rest) (hno : noInit ins = true) :
    ∃ t, runFor ins.length s = .next t ∧ StaysQuiet s t := by
  induction ins generalizing s with
  | nil => exact ⟨s, rfl, hp, hi, rfl, rfl, rfl, rfl, rfl⟩
  | cons inp ins ih =>
    obtain ⟨⟨hr, hreq⟩, hlater⟩ := noInit_cons.1 hno
    obtain rfl : pins s = inp := pins_of_script hscript
    obtain ⟨t, hstep, hquiet, hstim⟩ := step_staysQuiet hp hi hr hreq
    obtain ⟨r, hrun, hquiet'⟩ := ih hquiet.idle hquiet.uninitialized (by rw [hstim, hscript]; rfl) hlater
    exact ⟨r, (runFor_succ _ hstep).trans hrun, hquiet.trans hquiet'⟩

/-- Settles O55, by induction on the schedule: in IDLE no edge but INIT's leads to a bus operation. -/
theorem quietUntilInit : Obligations.QuietUntilInit := by
  intro s ins rest hp hi hscript hno
  obtain ⟨t, hrun, hquiet⟩ := runFor_staysQuiet hp hi hscript hno
  exact ⟨t, hrun, hquiet.idle, hquiet.uninitialized, hquiet.trace, by simp [bwValid, hquiet.idle],
    by simp [boReq, hquiet.idle], hquiet.bl, hquiet.id, hquiet.sh, hquiet.addr⟩

end Sys2Proof.Machine
end
